-- ==== Sys2Proof/Word.lean ====
section
/-!
DEFINITION. The word types of the block (00_scope.md R9: bit 0 is the least significant bit of every
register, byte and word).
-/

namespace Sys2Proof

/-- A byte of a buffer or of a frame (00_scope.md R9). -/
abbrev Byte := BitVec 8

/-- A 16-bit word: a command word, an address or a length register (10_state.md section 2). -/
abbrev Word16 := BitVec 16

/-- The 32-bit word of ERRINFO (10_state.md R24). -/
abbrev Word32 := BitVec 32

/-- The 64-bit word of VAL and of a value on the host's bus (10_state.md R34). -/
abbrev Word64 := BitVec 64

end Sys2Proof
end

