-- ==== Sys2Proof/Syntax.lean ====
section
/-!
DEFINITION. The names of the block: frame commands, TLV types, buffers, registers, the 62 commands, and
the host's actions between commands.
-/

namespace Sys2Proof

/-- The nine frame commands in the order of the enum of 00_scope.md R7 (30_encoding.md R81, R92). -/
inductive FrameCmd where
  | I | RR | RNR | SNRM | DISC | UI | UA | DM | FRMR
deriving DecidableEq, Repr

/-- The seventeen TLV types (30_encoding.md R100). -/
inductive TlvType where
  | arr | struct | bool | bstr | i32 | u32 | ostr | vstr | i8 | i16 | u8 | u16 | i64 | u64 | enum | f32 | f64
deriving DecidableEq, Repr

/-- The six byte buffers, each an address space of its own (10_state.md R42, 20_memory.md R60). -/
inductive BufName where
  | txf | rxf | txp | rxp | tlb | str
deriving DecidableEq, Repr

/-- The 28 registers, in the order of their numbers 0 to 27 (10_state.md section 2). -/
inductive Reg where
  | cmd | status | errinfo | errsticky | cfg | clientAddr | srvLog | srvPhy | sss | rrr
  | crcAcc | crcOut | val | strLen | txpLen | txfLen | rxfLen | rxpLen | rxCmd | rxCtrl
  | rxClient | rxLog | rxPhy | rxAlen | rxSss | rxRrr | tlbLen | tlbCur
deriving DecidableEq, Repr

/-- The 62 commands, one constructor per row of spec/opcode_table.json, in the table's order
(30_encoding.md R81). Only CRC.UPD and TLV.PUTB carry an operand in the command word: one unsigned byte
(R82 a). -/
inductive Instr where
  | nop | srst | clrerr
  | crcInit | crcUpd (b : Byte) | crcUpds
  | seqReset | seqTxdone | seqRxdone
  | hencI | hencRr | hencRnr | hencSnrm | hencDisc | hencUi | hencUa | hencDm | hencFrmr
  | hdec
  | xferT2p | xferP2t | xferF2r
  | tlvEncArr | tlvEncStruct | tlvEncBool | tlvEncBstr | tlvEncI32 | tlvEncU32 | tlvEncOstr
  | tlvEncVstr | tlvEncI8 | tlvEncI16 | tlvEncU8 | tlvEncU16 | tlvEncI64 | tlvEncU64 | tlvEncEnum
  | tlvEncF32 | tlvEncF64
  | tlvDecArr | tlvDecStruct | tlvDecBool | tlvDecBstr | tlvDecI32 | tlvDecU32 | tlvDecOstr
  | tlvDecVstr | tlvDecI8 | tlvDecI16 | tlvDecU8 | tlvDecU16 | tlvDecI64 | tlvDecU64 | tlvDecEnum
  | tlvDecF32 | tlvDecF64
  | tlvWsize | tlvRsize | tlvPutb (b : Byte) | tlvGetb | tlvClr | tlvRew
deriving DecidableEq, Repr

/-- What the host, and the reset input, can do between commands (30_encoding.md R109,
70_reset_and_hazards.md R300, R318, R319). `wr .cmd v` runs the command whose word is the low 16 bits of
`v` (10_state.md R22, R45). -/
inductive HostAction where
  /-- `WR NAME, v`: write a register. -/
  | wr (r : Reg) (v : Word64)
  /-- `WRB BUF, i, b0 b1 ...`: write the listed bytes to `BUF[i..]`. -/
  | wrb (b : BufName) (i : Nat) (bs : List Byte)
  /-- `RD NAME`: read a register. -/
  | rd (r : Reg)
  /-- `RDB BUF, i, n`: read `BUF[i..i+n)`. -/
  | rdb (b : BufName) (i n : Nat)
  /-- The block's reset input (R300). -/
  | reset
deriving DecidableEq, Repr

end Sys2Proof
end

