-- ==== Sys2Proof/Config.lean ====
section
/-!
DEFINITION. What an implementation fixes (00_scope.md R6) and the free values of the bytes the spec leaves
unspecified (10_state.md R43).
-/

namespace Sys2Proof.Config

/-- DESIGN CHOICE, assumption 3 (safe): the value of a byte of a buffer that nothing has specified
(10_state.md R43, R315). It has no body: no proof can see it. It is applied to the buffer, to the
buffer's epoch (how often bytes of it became unspecified) and to the index. -/
opaque unspecifiedByte : BufName → Nat → Nat → Byte

/-- DESIGN CHOICE, assumption 5 (safe): what a host read returns for a byte at or above the length
register (10_state.md R43: "A host read of such a byte returns any value"). It has no body. It is applied
to the buffer, to the number of host buffer reads so far and to the index. -/
opaque unspecifiedRead : BufName → Nat → Nat → Byte

/-- One rule of the classification of a control byte with bit 4 removed: the byte ANDed with `mask` equals
`value` (30_encoding.md R93). -/
structure ClassRule where
  mask : Byte
  value : Byte
  cmd : FrameCmd
deriving DecidableEq, Repr

/-- The OPEN parameter CTRL_TAGS: the nine tag bytes (R92) and the classification of a received control
byte as an ordered list of rules, the first that matches deciding (R93). Any classification that ignores
bit 4 is such a list (assumption 9). -/
structure CtrlTags where
  tagI : Byte
  tagRR : Byte
  tagRNR : Byte
  tagSNRM : Byte
  tagDISC : Byte
  tagUI : Byte
  tagUA : Byte
  tagDM : Byte
  tagFRMR : Byte
  rules : List ClassRule
deriving DecidableEq, Repr

/-- The OPEN parameters of 00_scope.md R6 (assumption 2). -/
structure Params where
  payCap : Nat
  tlbCap : Nat
  strCap : Nat
  tags : CtrlTags
deriving DecidableEq, Repr

end Sys2Proof.Config
end

