-- ==== Sys2Proof/Machine/CtrlTags.lean ====
section
/-!
DEFINITION. The values of the parameters (00_scope.md R6): FRAME_CAP, and the tags and the classification of
CTRL_TAGS with their defaults (30_encoding.md R92, R93).
-/

namespace Sys2Proof.Config

/-- FRAME_CAP, fixed: the longest frame the 12-bit length can describe, with its two flags (R6, R86). -/
def frameCap : Nat := 4097

/-- `TAG[c]` (30_encoding.md R92). -/
def CtrlTags.tag (t : CtrlTags) : FrameCmd → Byte
  | .I => t.tagI | .RR => t.tagRR | .RNR => t.tagRNR | .SNRM => t.tagSNRM | .DISC => t.tagDISC
  | .UI => t.tagUI | .UA => t.tagUA | .DM => t.tagDM | .FRMR => t.tagFRMR

/-- The classification of a control byte: bit 4 is removed, then the first rule that matches decides
(30_encoding.md R93). -/
def CtrlTags.classify (t : CtrlTags) (ctrl : Byte) : Option FrameCmd :=
  (t.rules.find? fun r => (ctrl &&& 0xEF#8) &&& r.mask == r.value).map (·.cmd)

/-- The default of CTRL_TAGS: the tags of 30_encoding.md R92 and the classification of R93, which the spec
supplies from general knowledge (93_implementation_defined.md U2, U3). -/
def defaultTags : CtrlTags where
  tagI := 0x00
  tagRR := 0x01
  tagRNR := 0x05
  tagSNRM := 0x83
  tagDISC := 0x43
  tagUI := 0x03
  tagUA := 0x63
  tagDM := 0x0F
  tagFRMR := 0x87
  rules :=
    [⟨0x01, 0x00, .I⟩, ⟨0x0F, 0x01, .RR⟩, ⟨0x0F, 0x05, .RNR⟩, ⟨0xFF, 0x83, .SNRM⟩,
     ⟨0xFF, 0x43, .DISC⟩, ⟨0xFF, 0x03, .UI⟩, ⟨0xFF, 0x63, .UA⟩, ⟨0xFF, 0x0F, .DM⟩,
     ⟨0xFF, 0x87, .FRMR⟩]

/-- The default parameters (00_scope.md R6). -/
def default : Params := { payCap := 4096, tlbCap := 4096, strCap := 4096, tags := defaultTags }

end Sys2Proof.Config
end

