-- ==== Sys2Proof/WellFormed.lean ====
section
/-!
DEFINITION. The checks on the block's inputs: which command words are legal (30_encoding.md R83) and which
parameter values an instance may have (00_scope.md R6, 30_encoding.md R94). A term of Instr has no further
check of its own: its only operands are bytes, and every byte is legal (R82 a, R83).
-/

namespace Sys2Proof

/-- The OP field of a command word (30_encoding.md R80). -/
def opOf (w : Word16) : Byte := w.extractLsb' 0 8

/-- The ARG field of a command word (30_encoding.md R80). -/
def argOf (w : Word16) : Byte := w.extractLsb' 8 8

/-- The OP values of the rows marked "ARG = 0" (30_encoding.md R81). -/
def zeroArgOps : List Byte :=
  [0x00, 0x01, 0x02, 0x10, 0x12, 0x18, 0x19, 0x1A, 0x21, 0x30, 0x31, 0x32, 0x42, 0x43, 0x45, 0x46, 0x47]

/-- The OP values of the rows whose ARG is an immediate byte (30_encoding.md R81). -/
def immediateOps : List Byte := [0x11, 0x44]

/-- The seventeen tags, in the order of the table of 30_encoding.md R100. -/
def tlvTags : List Byte :=
  [1, 2, 3, 4, 5, 6, 9, 10, 15, 16, 17, 18, 20, 21, 22, 23, 24]

/-- A command word is legal when no clause of 30_encoding.md R83 makes it illegal. -/
def legalWord (w : Word16) : Bool :=
  zeroArgOps.contains (opOf w) && argOf w == 0
    || immediateOps.contains (opOf w)
    || opOf w == 0x20 && decide ((argOf w).toNat ≤ 8)
    || (opOf w == 0x40 || opOf w == 0x41) && tlvTags.contains (argOf w)

namespace Config

/-- Every frame command, in the order of their indices (30_encoding.md R81). -/
def frameCmds : List FrameCmd := [.I, .RR, .RNR, .SNRM, .DISC, .UI, .UA, .DM, .FRMR]

/-- The constraints of 30_encoding.md R94 on CTRL_TAGS. That the classification ignores bit 4 holds of
every CtrlTags by the definition of `classify`. -/
def CtrlTags.wf (t : CtrlTags) : Bool :=
  frameCmds.all (fun c => t.tag c &&& 0x10 == 0)
    && t.tagI &&& 0xEF == 0
    && frameCmds.all (fun c => c == .I || t.classify (t.tag c ||| 0x10) == some c)
    && (List.range 8).all fun x => (List.range 8).all fun y =>
        t.classify (t.tagI ||| 0x10 ||| BitVec.ofNat 8 (x <<< 5) ||| BitVec.ofNat 8 (y <<< 1)) == some .I

/-- The range of a capacity (00_scope.md R6). -/
def capOk (n : Nat) : Bool := 255 ≤ n && n ≤ 65535

/-- The constraints of 00_scope.md R6 on the OPEN parameters. -/
def Params.wf (p : Params) : Bool := capOk p.payCap && capOk p.tlbCap && capOk p.strCap && p.tags.wf

end Config

end Sys2Proof
end

