-- ==== Sys2Proof/Decode.lean ====
section
/-!
DEFINITION. Decoding and encoding of the command word (30_encoding.md R80 to R83, R100).
-/

namespace Sys2Proof

/-- Why a command word is illegal: the clauses (a) to (d) of 30_encoding.md R83. -/
inductive IllegalWord where
  /-- (a) OP is not in the table of R81. -/
  | opNotAssigned
  /-- (b) OP is in a row marked "ARG = 0" and ARG is not zero. -/
  | argNotZero
  /-- (c) OP is 0x20 and ARG is above 8. -/
  | frameIndexAbove8
  /-- (d) OP is 0x40 or 0x41 and ARG is not one of the seventeen tags. -/
  | notATag
deriving DecidableEq, Repr

/-- The index of a frame command (30_encoding.md R81). -/
def FrameCmd.index : FrameCmd → Byte
  | .I => 0 | .RR => 1 | .RNR => 2 | .SNRM => 3 | .DISC => 4 | .UI => 5 | .UA => 6 | .DM => 7 | .FRMR => 8

/-- The frame command of an ARG (30_encoding.md R81). -/
def FrameCmd.ofIndex? (b : Byte) : Option FrameCmd :=
  match b with
  | 0#8 => some .I | 1#8 => some .RR | 2#8 => some .RNR | 3#8 => some .SNRM | 4#8 => some .DISC
  | 5#8 => some .UI | 6#8 => some .UA | 7#8 => some .DM | 8#8 => some .FRMR
  | _ => none

/-- The tag of a TLV type (30_encoding.md R100). -/
def TlvType.tag : TlvType → Byte
  | .arr => 1 | .struct => 2 | .bool => 3 | .bstr => 4 | .i32 => 5 | .u32 => 6 | .ostr => 9 | .vstr => 10
  | .i8 => 15 | .i16 => 16 | .u8 => 17 | .u16 => 18 | .i64 => 20 | .u64 => 21 | .enum => 22 | .f32 => 23
  | .f64 => 24

/-- The TLV type of an ARG (30_encoding.md R100, R106). -/
def TlvType.ofTag? (b : Byte) : Option TlvType :=
  match b with
  | 1#8 => some .arr | 2#8 => some .struct | 3#8 => some .bool | 4#8 => some .bstr | 5#8 => some .i32
  | 6#8 => some .u32 | 9#8 => some .ostr | 10#8 => some .vstr | 15#8 => some .i8 | 16#8 => some .i16
  | 17#8 => some .u8 | 18#8 => some .u16 | 20#8 => some .i64 | 21#8 => some .u64 | 22#8 => some .enum
  | 23#8 => some .f32 | 24#8 => some .f64
  | _ => none

/-- `HENC.<c>` (30_encoding.md R81). -/
def FrameCmd.henc : FrameCmd → Instr
  | .I => .hencI | .RR => .hencRr | .RNR => .hencRnr | .SNRM => .hencSnrm | .DISC => .hencDisc
  | .UI => .hencUi | .UA => .hencUa | .DM => .hencDm | .FRMR => .hencFrmr

/-- `TLV.ENC.<t>` (30_encoding.md R81). -/
def TlvType.enc : TlvType → Instr
  | .arr => .tlvEncArr | .struct => .tlvEncStruct | .bool => .tlvEncBool | .bstr => .tlvEncBstr
  | .i32 => .tlvEncI32 | .u32 => .tlvEncU32 | .ostr => .tlvEncOstr | .vstr => .tlvEncVstr
  | .i8 => .tlvEncI8 | .i16 => .tlvEncI16 | .u8 => .tlvEncU8 | .u16 => .tlvEncU16 | .i64 => .tlvEncI64
  | .u64 => .tlvEncU64 | .enum => .tlvEncEnum | .f32 => .tlvEncF32 | .f64 => .tlvEncF64

/-- `TLV.DEC.<t>` (30_encoding.md R81). -/
def TlvType.dec : TlvType → Instr
  | .arr => .tlvDecArr | .struct => .tlvDecStruct | .bool => .tlvDecBool | .bstr => .tlvDecBstr
  | .i32 => .tlvDecI32 | .u32 => .tlvDecU32 | .ostr => .tlvDecOstr | .vstr => .tlvDecVstr
  | .i8 => .tlvDecI8 | .i16 => .tlvDecI16 | .u8 => .tlvDecU8 | .u16 => .tlvDecU16 | .i64 => .tlvDecI64
  | .u64 => .tlvDecU64 | .enum => .tlvDecEnum | .f32 => .tlvDecF32 | .f64 => .tlvDecF64

/-- A row marked "ARG = 0" (30_encoding.md R81, R83 b). -/
def plain (arg : Byte) (i : Instr) : Except IllegalWord Instr :=
  if arg = 0 then .ok i else .error .argNotZero

/-- The command a word encodes, or the clause of 30_encoding.md R83 that makes it illegal. Total. -/
def decode (w : Word16) : Except IllegalWord Instr :=
  match opOf w with
  | 0x00#8 => plain (argOf w) .nop
  | 0x01#8 => plain (argOf w) .srst
  | 0x02#8 => plain (argOf w) .clrerr
  | 0x10#8 => plain (argOf w) .crcInit
  | 0x11#8 => .ok (.crcUpd (argOf w))
  | 0x12#8 => plain (argOf w) .crcUpds
  | 0x18#8 => plain (argOf w) .seqReset
  | 0x19#8 => plain (argOf w) .seqTxdone
  | 0x1A#8 => plain (argOf w) .seqRxdone
  | 0x20#8 =>
    match FrameCmd.ofIndex? (argOf w) with
    | some c => .ok c.henc
    | none => .error .frameIndexAbove8
  | 0x21#8 => plain (argOf w) .hdec
  | 0x30#8 => plain (argOf w) .xferT2p
  | 0x31#8 => plain (argOf w) .xferP2t
  | 0x32#8 => plain (argOf w) .xferF2r
  | 0x40#8 =>
    match TlvType.ofTag? (argOf w) with
    | some t => .ok t.enc
    | none => .error .notATag
  | 0x41#8 =>
    match TlvType.ofTag? (argOf w) with
    | some t => .ok t.dec
    | none => .error .notATag
  | 0x42#8 => plain (argOf w) .tlvWsize
  | 0x43#8 => plain (argOf w) .tlvRsize
  | 0x44#8 => .ok (.tlvPutb (argOf w))
  | 0x45#8 => plain (argOf w) .tlvGetb
  | 0x46#8 => plain (argOf w) .tlvClr
  | 0x47#8 => plain (argOf w) .tlvRew
  | _ => .error .opNotAssigned

/-- `ARG << 8 | OP` (30_encoding.md R81). -/
def word (op arg : Byte) : Word16 := arg ++ op

/-- The command word of a command (30_encoding.md R81). -/
def encode : Instr → Word16
  | .nop => word 0x00 0
  | .srst => word 0x01 0
  | .clrerr => word 0x02 0
  | .crcInit => word 0x10 0
  | .crcUpd b => word 0x11 b
  | .crcUpds => word 0x12 0
  | .seqReset => word 0x18 0
  | .seqTxdone => word 0x19 0
  | .seqRxdone => word 0x1A 0
  | .hencI => word 0x20 0
  | .hencRr => word 0x20 1
  | .hencRnr => word 0x20 2
  | .hencSnrm => word 0x20 3
  | .hencDisc => word 0x20 4
  | .hencUi => word 0x20 5
  | .hencUa => word 0x20 6
  | .hencDm => word 0x20 7
  | .hencFrmr => word 0x20 8
  | .hdec => word 0x21 0
  | .xferT2p => word 0x30 0
  | .xferP2t => word 0x31 0
  | .xferF2r => word 0x32 0
  | .tlvEncArr => word 0x40 1
  | .tlvEncStruct => word 0x40 2
  | .tlvEncBool => word 0x40 3
  | .tlvEncBstr => word 0x40 4
  | .tlvEncI32 => word 0x40 5
  | .tlvEncU32 => word 0x40 6
  | .tlvEncOstr => word 0x40 9
  | .tlvEncVstr => word 0x40 10
  | .tlvEncI8 => word 0x40 15
  | .tlvEncI16 => word 0x40 16
  | .tlvEncU8 => word 0x40 17
  | .tlvEncU16 => word 0x40 18
  | .tlvEncI64 => word 0x40 20
  | .tlvEncU64 => word 0x40 21
  | .tlvEncEnum => word 0x40 22
  | .tlvEncF32 => word 0x40 23
  | .tlvEncF64 => word 0x40 24
  | .tlvDecArr => word 0x41 1
  | .tlvDecStruct => word 0x41 2
  | .tlvDecBool => word 0x41 3
  | .tlvDecBstr => word 0x41 4
  | .tlvDecI32 => word 0x41 5
  | .tlvDecU32 => word 0x41 6
  | .tlvDecOstr => word 0x41 9
  | .tlvDecVstr => word 0x41 10
  | .tlvDecI8 => word 0x41 15
  | .tlvDecI16 => word 0x41 16
  | .tlvDecU8 => word 0x41 17
  | .tlvDecU16 => word 0x41 18
  | .tlvDecI64 => word 0x41 20
  | .tlvDecU64 => word 0x41 21
  | .tlvDecEnum => word 0x41 22
  | .tlvDecF32 => word 0x41 23
  | .tlvDecF64 => word 0x41 24
  | .tlvWsize => word 0x42 0
  | .tlvRsize => word 0x43 0
  | .tlvPutb b => word 0x44 b
  | .tlvGetb => word 0x45 0
  | .tlvClr => word 0x46 0
  | .tlvRew => word 0x47 0

/-- The command in the low `nbits` bits of `w`, the word's bits above `nbits` zero. A command is one 16-bit
word, so bits 16 and above play no part (30_encoding.md R80; assumption 10). -/
def decodeTableWord (nbits w : Nat) : Option Instr :=
  match decode (BitVec.ofNat 16 (w % 2 ^ nbits)) with
  | .ok i => some i
  | .error _ => none

end Sys2Proof
end

