-- ==== Sys2Proof/Machine/State.lean ====
section
/-!
DEFINITION. The state of one block as plain data (10_state.md R20 to R45), the state after reset (R49), and
the reasons a step can stop.
-/

namespace Sys2Proof.Machine

/-- The bytes of a buffer that have a specified value, as (index, byte) pairs. An index that is not listed
reads as NO value: its byte is unspecified (10_state.md R43), so no entry can equal what an unlisted index
reads as, and the canonical form is: indices strictly rising. -/
abbrev Memory := List Host.Cell

/-- The canonical form of a memory: indices strictly rising. -/
abbrev Memory.wf (m : Memory) : Prop := m.Pairwise fun x y => x.1 < y.1

/-- One of the six buffers (10_state.md R42). `epoch` is the MODEL's own: it counts how often bytes of this
buffer became unspecified, so that a byte which becomes unspecified again is a fresh free value
(assumption 3, DESIGN CHOICE). -/
structure Buf where
  cells : Memory
  epoch : Nat
deriving DecidableEq, Repr

/-- What the last host read returned (70_reset_and_hazards.md R318; the MODEL's own, assumption 7). -/
inductive BusRead where
  /-- No host read yet. -/
  | none
  /-- The value of a register, zero-extended. -/
  | reg (v : Word64)
  /-- Bytes of a buffer. -/
  | bytes (bs : List Byte)
deriving DecidableEq, Repr

/-- Why a step stops. -/
inductive Fault where
  /-- Raised by the host action `rdb` alone, when it reads at or beyond the capacity of `b`: no such byte
  exists (20_memory.md R60, 70_reset_and_hazards.md R318; assumption 6). Safe: the model stops where the
  spec says nothing. No command raises it. -/
  | hostReadBeyondCapacity (b : BufName)
deriving DecidableEq, Repr

/-- Why an instruction has no meaning. -/
inductive Refusal where
  /-- Raised by an arm of `exec` whose instruction has no meaning yet; no arm does. Safe. -/
  | notModelled (mnemonic : String)
deriving DecidableEq, Repr

/-- The whole state of one block (10_state.md R20), its configuration (00_scope.md R6), and the host's
actions still to come (70_reset_and_hazards.md R319). CRC_OUT (register 11) is a view of `crcAcc` and has no
storage (R33). -/
structure State where
  /-- CMD, register 0 (R22). -/
  cmd : BitVec 16
  /-- STATUS, register 1 (R23). -/
  status : BitVec 8
  /-- ERRINFO, register 2 (R24). -/
  errinfo : BitVec 32
  /-- ERRSTICKY, register 3 (R25). -/
  errsticky : BitVec 16
  /-- CFG, register 4 (R26). -/
  cfg : BitVec 8
  /-- CLIENT_ADDR, register 5 (R27). -/
  clientAddr : BitVec 8
  /-- SRV_LOG, register 6 (R28). -/
  srvLog : BitVec 16
  /-- SRV_PHY, register 7 (R29). -/
  srvPhy : BitVec 16
  /-- SSS, register 8 (R30). -/
  sss : BitVec 3
  /-- RRR, register 9 (R31). -/
  rrr : BitVec 3
  /-- CRC_ACC, register 10 (R32). -/
  crcAcc : BitVec 16
  /-- VAL, register 12 (R34). -/
  val : BitVec 64
  /-- STR_LEN, register 13 (R35). -/
  strLen : BitVec 16
  /-- TXP_LEN, register 14 (R36). -/
  txpLen : BitVec 16
  /-- TXF_LEN, register 15 (R37). -/
  txfLen : BitVec 16
  /-- RXF_LEN, register 16 (R38). -/
  rxfLen : BitVec 16
  /-- RXP_LEN, register 17 (R39). -/
  rxpLen : BitVec 16
  /-- RX_CMD, register 18 (R40). -/
  rxCmd : BitVec 4
  /-- RX_CTRL, register 19 (R40). -/
  rxCtrl : BitVec 8
  /-- RX_CLIENT, register 20 (R40). -/
  rxClient : BitVec 8
  /-- RX_LOG, register 21 (R40). -/
  rxLog : BitVec 16
  /-- RX_PHY, register 22 (R40). -/
  rxPhy : BitVec 16
  /-- RX_ALEN, register 23 (R40). -/
  rxAlen : BitVec 3
  /-- RX_SSS, register 24 (R40). -/
  rxSss : BitVec 3
  /-- RX_RRR, register 25 (R40). -/
  rxRrr : BitVec 3
  /-- TLB_LEN, register 26 (R41). -/
  tlbLen : BitVec 16
  /-- TLB_CUR, register 27 (R41). -/
  tlbCur : BitVec 16
  /-- The buffer TXF (R42). -/
  txf : Buf
  /-- The buffer RXF (R42). -/
  rxf : Buf
  /-- The buffer TXP (R42). -/
  txp : Buf
  /-- The buffer RXP (R42). -/
  rxp : Buf
  /-- The buffer TLB (R42). -/
  tlb : Buf
  /-- The buffer STR (R42). -/
  str : Buf
  /-- The OPEN parameters (00_scope.md R6); no step changes them (assumption 2). -/
  params : Config.Params
  /-- The host actions still to come, the next one first (the MODEL's own, assumption 1). -/
  hostQueue : List HostAction
  /-- What the last host read returned (the MODEL's own, assumption 7). -/
  busRead : BusRead
  /-- How many host buffer reads there were (the MODEL's own, assumption 5). -/
  hostReads : Nat
deriving DecidableEq, Repr

/-- A buffer with no specified byte (10_state.md R43). -/
def Buf.empty : Buf := { cells := [], epoch := 0 }

/-- The state right after hardware reset (10_state.md R49, 70_reset_and_hazards.md R301): every register 0
but CRC_ACC = 0xFFFF and RX_CMD = 15, every byte of every buffer unspecified. The parameters are the spec's
defaults (R6); the model's own fields are empty (assumptions 1, 3, 5, 7). -/
def State.reset : State where
  cmd := 0
  status := 0
  errinfo := 0
  errsticky := 0
  cfg := 0
  clientAddr := 0
  srvLog := 0
  srvPhy := 0
  sss := 0
  rrr := 0
  crcAcc := 0xFFFF
  val := 0
  strLen := 0
  txpLen := 0
  txfLen := 0
  rxfLen := 0
  rxpLen := 0
  rxCmd := 15
  rxCtrl := 0
  rxClient := 0
  rxLog := 0
  rxPhy := 0
  rxAlen := 0
  rxSss := 0
  rxRrr := 0
  tlbLen := 0
  tlbCur := 0
  txf := Buf.empty
  rxf := Buf.empty
  txp := Buf.empty
  rxp := Buf.empty
  tlb := Buf.empty
  str := Buf.empty
  params := Config.default
  hostQueue := []
  busRead := .none
  hostReads := 0

end Sys2Proof.Machine
end

