-- ==== Sys2Proof/Machine/Flags.lean ====
section
/-!
DEFINITION. How the outcome of a command is coded in STATUS, ERRINFO and ERRSTICKY, the only flags of the
block (10_state.md R23 to R25, R46; 60_exceptions.md R270, R271).
-/

namespace Sys2Proof.Machine

/-- The ten error codes (60_exceptions.md R270). -/
inductive ErrCode where
  | invalidFraming | lengthMismatch | checksumMismatch | unsupportedSegmentation | tagMismatch
  | unexpectedEndOfData | malformedLength | illegalCommand | invalidOperand | capacityExceeded
deriving DecidableEq, Repr

/-- The number of a code (60_exceptions.md R270). -/
def ErrCode.num : ErrCode → Nat
  | .invalidFraming => 1
  | .lengthMismatch => 2
  | .checksumMismatch => 3
  | .unsupportedSegmentation => 4
  | .tagMismatch => 5
  | .unexpectedEndOfData => 6
  | .malformedLength => 7
  | .illegalCommand => 8
  | .invalidOperand => 9
  | .capacityExceeded => 10

/-- `E(sub, off)`: a code, its sub-cause and a byte offset (00_scope.md R10). -/
structure CmdError where
  code : ErrCode
  sub : Nat
  off : Nat
deriving DecidableEq, Repr

/-- STATUS of an error (10_state.md R23). -/
def CmdError.statusWord (e : CmdError) : BitVec 8 := BitVec.ofNat 8 e.code.num

/-- ERRINFO of an error: OFF modulo 65536 in 15:0, SUB in 23:16, zero above (10_state.md R24,
60_exceptions.md R276). -/
def CmdError.infoWord (e : CmdError) : BitVec 32 :=
  0#8 ++ BitVec.ofNat 8 e.sub ++ BitVec.ofNat 16 e.off

/-- The bit of ERRSTICKY an error sets: bit `k` for code `k` (10_state.md R25). -/
def CmdError.stickyWord (e : CmdError) : BitVec 16 := 1#16 <<< e.code.num

end Sys2Proof.Machine
end

