-- ==== Sys2Proof/Machine/Ops.lean ====
section
/-!
DEFINITION. The named operations over the buffers and the registers, and the two ways a command ends:
`done` (60_exceptions.md R275) and `raise` (R276), which is what the block has in place of an exception.
-/

namespace Sys2Proof.Machine

/-! ## Memory -/

/-- The specified byte at an index, if there is one. -/
def Memory.get? : Memory → Nat → Option Byte
  | [], _ => none
  | (a, v) :: m, i => if a = i then some v else Memory.get? m i

/-- The cells of a byte sequence stored from index `i` on. -/
def Memory.listing : Nat → List Byte → Memory
  | _, [] => []
  | i, b :: bs => (i, b) :: Memory.listing (i + 1) bs

/-- `MemWrite(B, i, len bs, bs)`: bytes outside the range keep their value (00_scope.md R10). -/
def Memory.write (m : Memory) (i : Nat) (bs : List Byte) : Memory :=
  m.filter (fun c => decide (c.1 < i)) ++ Memory.listing i bs
    ++ m.filter (fun c => decide (i + bs.length ≤ c.1))

/-- The cells below an index. -/
def Memory.below (m : Memory) (n : Nat) : Memory := m.filter fun c => decide (c.1 < n)

/-! ## Buffers -/

/-- The byte at an index: the specified one, or the free value of an unspecified byte (10_state.md R43,
assumption 3). -/
def Buf.byteAt (x : Buf) (b : BufName) (i : Nat) : Byte :=
  match x.cells.get? i with
  | some v => v
  | none => Config.unspecifiedByte b x.epoch i

/-- Storing bytes in a buffer (00_scope.md R10). -/
def Buf.write (x : Buf) (i : Nat) (bs : List Byte) : Buf := { x with cells := x.cells.write i bs }

/-- Every byte at or above `n` becomes unspecified, under a fresh epoch (10_state.md R43, assumption 3). -/
def Buf.truncate (x : Buf) (n : Nat) : Buf := { cells := x.cells.below n, epoch := x.epoch + 1 }

/-- A buffer of the state, by name (20_memory.md R60). -/
def State.buf (s : State) : BufName → Buf
  | .txf => s.txf | .rxf => s.rxf | .txp => s.txp | .rxp => s.rxp | .tlb => s.tlb | .str => s.str

/-- Replaces one buffer. -/
def State.setBuf (s : State) (b : BufName) (x : Buf) : State :=
  match b with
  | .txf => { s with txf := x }
  | .rxf => { s with rxf := x }
  | .txp => { s with txp := x }
  | .rxp => { s with rxp := x }
  | .tlb => { s with tlb := x }
  | .str => { s with str := x }

/-- The length register of a buffer (10_state.md R42). -/
def State.len (s : State) : BufName → Word16
  | .txf => s.txfLen | .rxf => s.rxfLen | .txp => s.txpLen | .rxp => s.rxpLen | .tlb => s.tlbLen
  | .str => s.strLen

/-- Replaces one length register, and nothing else. -/
def State.putLen (s : State) (b : BufName) (v : Word16) : State :=
  match b with
  | .txf => { s with txfLen := v }
  | .rxf => { s with rxfLen := v }
  | .txp => { s with txpLen := v }
  | .rxp => { s with rxpLen := v }
  | .tlb => { s with tlbLen := v }
  | .str => { s with strLen := v }

/-- The capacity of a buffer (00_scope.md R6, 10_state.md R42). -/
def capOf (p : Config.Params) : BufName → Nat
  | .txf | .rxf => Config.frameCap
  | .txp | .rxp => p.payCap
  | .tlb => p.tlbCap
  | .str => p.strCap

/-- The capacity of a buffer of this state. -/
def State.cap (s : State) (b : BufName) : Nat := capOf s.params b

/-- Writing a length register. Where the new length is below the old one, the bytes at and above it are no
longer below the length register and become unspecified (10_state.md R43, 70_reset_and_hazards.md R308);
where it is not, no byte changes (assumptions 3 and 4). -/
def State.setLen (s : State) (b : BufName) (v : Word16) : State :=
  if v < s.len b then (s.setBuf b ((s.buf b).truncate v.toNat)).putLen b v else s.putLen b v

/-- The byte a command reads at an index of a buffer. -/
def State.byteAt (s : State) (b : BufName) (i : Nat) : Byte := (s.buf b).byteAt b i

/-- `MemRead(B, i, n)` (00_scope.md R10). -/
def State.readBytes (s : State) (b : BufName) (i n : Nat) : List Byte :=
  (List.range n).map fun k => s.byteAt b (i + k)

/-- `MemWrite(B, i, len bs, bs)` (00_scope.md R10). -/
def State.writeBytes (s : State) (b : BufName) (i : Nat) (bs : List Byte) : State :=
  s.setBuf b ((s.buf b).write i bs)

/-! ## Fields of CFG -/

/-- `CFG.LLC_RX_SEL` (10_state.md R26). -/
def State.llcRxSel (s : State) : Bool := s.cfg.getLsbD 0

/-- `CFG.SRV_ALEN` (10_state.md R26). -/
def State.srvAlen (s : State) : BitVec 2 := s.cfg.extractLsb' 1 2

/-! ## How a command ends -/

/-- `done` (60_exceptions.md R275). -/
def State.done (s : State) : State := { s with status := 0, errinfo := 0 }

/-- `raise E(sub, off)` (60_exceptions.md R276): STATUS, ERRINFO and one bit of ERRSTICKY, nothing else. This
is the block's one form of taking an exception; there is no return from one (R278). -/
def State.raise (s : State) (e : CmdError) : State :=
  { s with status := e.statusWord, errinfo := e.infoWord, errsticky := s.errsticky ||| e.stickyWord }

/-- A check of a command: it raises `e` when the condition holds (00_scope.md R11). -/
def raiseIf (c : Prop) [Decidable c] (e : CmdError) : Except CmdError Unit :=
  if c then .error e else .ok ()

/-- The end of a command whose checks and writes gave `r`: with its writes and `done`, or with `raise` from
the state before it, so that a command that raises has written nothing (00_scope.md R11, 60_exceptions.md
R276). -/
def State.finish (s : State) (r : Except CmdError State) : Host.Outcome State Fault Refusal :=
  match r with
  | .ok t => .next t.done
  | .error e => .next (s.raise e)

/-- The illegal command word (30_encoding.md R83, 40_system.md R120). -/
def illegalCommand : CmdError := ⟨.illegalCommand, 0, 0⟩

/-! ## Reset -/

/-- What both resets do to every register but CMD, and to the buffers (70_reset_and_hazards.md R300, R301):
the registers take their reset values and every byte becomes unspecified. The parameters and the model's own
fields stay, but for the epochs of the buffers (assumptions 1, 3, 19). -/
def State.clearAll (s : State) : State :=
  { State.reset with
    cmd := s.cmd
    txf := s.txf.truncate 0
    rxf := s.rxf.truncate 0
    txp := s.txp.truncate 0
    rxp := s.rxp.truncate 0
    tlb := s.tlb.truncate 0
    str := s.str.truncate 0
    params := s.params
    hostQueue := s.hostQueue
    busRead := s.busRead
    hostReads := s.hostReads }

/-- Hardware reset: as `clearAll`, and CMD is 0x0000 (70_reset_and_hazards.md R301). -/
def State.hardReset (s : State) : State := { s.clearAll with cmd := 0 }

end Sys2Proof.Machine
end

