-- ==== Sys2Proof/Machine/Operands.lean ====
section
/-!
DEFINITION. The operand forms: numbers as bytes (20_memory.md R64, R65), the low bits of VAL (30_encoding.md
R82), the length prefix (R101), addresses (R88 to R91), the control byte (R95) and the LLC headers (R97).
-/

namespace Sys2Proof.Machine

/-! ## Numbers and bytes -/

/-- `be_n(v)`: the `n` bytes of `v`, most significant first (00_scope.md R10, 20_memory.md R64). -/
def be : Nat → Nat → List Byte
  | 0, _ => []
  | n + 1, v => BitVec.ofNat 8 (v >>> (8 * n)) :: be n v

/-- The number a byte sequence stands for, most significant byte first (20_memory.md R64). -/
def ofBe (bs : List Byte) : Nat := bs.foldl (fun a b => a * 256 + b.toNat) 0

/-- `le16(v)` (00_scope.md R10, 20_memory.md R65). -/
def le16 (v : Word16) : List Byte := [v.extractLsb' 0 8, v.extractLsb' 8 8]

/-- The 16-bit number of a low and a high byte (20_memory.md R65). -/
def ofLe16 (lo hi : Byte) : Word16 := hi ++ lo

/-- `s[i]` (00_scope.md R9), used within the length of `s` only. -/
def byteOf (F : List Byte) (i : Nat) : Byte := F.getD i 0

/-- `s[a..b)` (00_scope.md R9). -/
def slice (F : List Byte) (a b : Nat) : List Byte := (F.drop a).take (b - a)

/-! ## VAL -/

/-- `VAL[31:0]`, unsigned: a length or a count (30_encoding.md R82 e). -/
def State.count (s : State) : Nat := (s.val.extractLsb' 0 32).toNat

/-- `be_w(VAL[8w-1:0])`: the low `w` bytes of VAL (30_encoding.md R82 b, R103). -/
def State.valBytes (s : State) (w : Nat) : List Byte := be w s.val.toNat

/-- `zext_64(v)` (30_encoding.md R82 c). -/
def zext64 (v : Nat) : Word64 := BitVec.ofNat 64 v

/-- `sext_64(v)` of an `n`-bit number (30_encoding.md R82 d). -/
def sext64 (n : Nat) (v : Nat) : Word64 := (BitVec.ofNat n v).signExtend 64

/-! ## The length prefix -/

/-- `wsize(n)` (30_encoding.md R101). -/
def wsize (n : Nat) : List Byte :=
  if n ≤ 0x80 then be 1 n
  else if n ≤ 0xFF then 0x81 :: be 1 n
  else if n ≤ 0xFFFF then 0x82 :: be 2 n
  else if n ≤ 0xFFFFFF then 0x83 :: be 3 n
  else 0x84 :: be 4 n

/-- The number of bytes of `nbits` bits, `(nbits + 7) div 8` (46_tlv_encode.md R214, 47_tlv_decode.md R244). -/
def bytesOfBits (nbits : Nat) : Nat := (nbits + 7) / 8

/-! ## Addresses -/

/-- An address byte: seven address bits in 7:1 and the extension bit, 1 on the last byte of an address
(30_encoding.md R88, R89). -/
def addrByte (a : BitVec 7) (last : Bool) : Byte := a ++ BitVec.ofBool last

/-- The seven address bits of an address byte (30_encoding.md R88). -/
def addrBits (b : Byte) : BitVec 7 := b.extractLsb' 1 7

/-- `na`, the number of server address bytes of `CFG.SRV_ALEN`; 3 is reserved (10_state.md R26). -/
def alenBytes (a : BitVec 2) : Option Nat :=
  if a = 0 then some 1 else if a = 1 then some 2 else if a = 2 then some 4 else none

/-- `maxL(na)` (43_hdlc_encode.md R152). -/
def maxLog (na : Nat) : Nat := if na = 4 then 0x3FFF else 0x7F

/-- `maxP(na)` (43_hdlc_encode.md R152). -/
def maxPhy (na : Nat) : Nat := if na = 4 then 0x3FFF else if na = 2 then 0x7F else 0

/-- `A_srv(L, P, na)` (30_encoding.md R91). -/
def serverBytes (L P : Word16) (na : Nat) : List Byte :=
  if na = 4 then
    [addrByte (L.extractLsb' 7 7) false, addrByte (L.extractLsb' 0 7) false,
     addrByte (P.extractLsb' 7 7) false, addrByte (P.extractLsb' 0 7) true]
  else if na = 2 then [addrByte (L.extractLsb' 0 7) false, addrByte (P.extractLsb' 0 7) true]
  else [addrByte (L.extractLsb' 0 7) true]

/-- What the decoder returns for 1, 2 or 4 server address bytes (30_encoding.md R91). -/
def serverOf (d : List Byte) : Word16 × Word16 :=
  match d with
  | [b0] => ((addrBits b0).setWidth 16, 0)
  | [b0, b1] => ((addrBits b0).setWidth 16, (addrBits b1).setWidth 16)
  | [b0, b1, b2, b3] =>
    ((addrBits b0 ++ addrBits b1 : BitVec 14).setWidth 16, (addrBits b2 ++ addrBits b3 : BitVec 14).setWidth 16)
  | _ => (0, 0)

/-- The client address byte (30_encoding.md R90). -/
def clientByte (c : Byte) : Byte := addrByte (c.extractLsb' 0 7) true

/-! ## The control byte and the LLC headers -/

/-- The control byte of a frame (30_encoding.md R95). -/
def controlByte (t : Config.CtrlTags) (c : FrameCmd) (sss rrr : BitVec 3) : Byte :=
  match c with
  | .I => t.tag .I ||| 0x10 ||| (sss + 1).setWidth 8 <<< 5 ||| rrr.setWidth 8 <<< 1
  | c => t.tag c ||| 0x10

/-- `(CTRL[7:5] + 7) mod 8` (30_encoding.md R95). -/
def ctrlSend (ctrl : Byte) : BitVec 3 := ctrl.extractLsb' 5 3 + 7

/-- `CTRL[3:1]` (30_encoding.md R95). -/
def ctrlRecv (ctrl : Byte) : BitVec 3 := ctrl.extractLsb' 1 3

/-- The LLC header the encoder writes (30_encoding.md R97). -/
def llcTx : List Byte := [0xE6, 0xE6, 0x00]

/-- The LLC header the decoder requires, by `CFG.LLC_RX_SEL` (30_encoding.md R97). -/
def llcRx (sel : Bool) : List Byte := if sel then [0xE6, 0xE6, 0x00] else [0xE6, 0xE7, 0x00]

end Sys2Proof.Machine
end

