-- ==== Sys2Proof/Machine/Crc.lean ====
section
/-!
DEFINITION. The CRC-16 unit (41_crc.md): the table, the step, the function crc16, and the three commands.
-/

namespace Sys2Proof.Machine

/-- One of the eight steps that compute a table entry (41_crc.md R131). -/
def crcShift (c : Word16) : Word16 := if c.getLsbD 0 then c >>> 1 ^^^ 0x8408 else c >>> 1

/-- `CRCTAB[i]`, by the eight steps of 41_crc.md R131. -/
def crcTab (i : Byte) : Word16 :=
  crcShift (crcShift (crcShift (crcShift (crcShift (crcShift (crcShift (crcShift (i.setWidth 16))))))))

/-- `crc_step(a, b)` (41_crc.md R132). -/
def crcStep (a : Word16) (b : Byte) : Word16 := a >>> 8 ^^^ crcTab ((a ^^^ b.setWidth 16).setWidth 8)

/-- `crc_step` folded over a byte sequence in index order (41_crc.md R132). -/
def crcFold (a : Word16) (bs : List Byte) : Word16 := bs.foldl crcStep a

/-- `crc16(s)` (41_crc.md R130, R132): seed 0xFFFF, final complement. -/
def crc16 (bs : List Byte) : Word16 := crcFold 0xFFFF bs ^^^ 0xFFFF

/-- CRC.INIT (41_crc.md R134). -/
def execCrcInit (s : State) : Host.Outcome State Fault Refusal := s.finish (.ok { s with crcAcc := 0xFFFF })

/-- CRC.UPD #b (41_crc.md R135). -/
def execCrcUpd (b : Byte) (s : State) : Host.Outcome State Fault Refusal :=
  s.finish (.ok { s with crcAcc := crcStep s.crcAcc b })

/-- CRC.UPDS (41_crc.md R136). -/
def execCrcUpds (s : State) : Host.Outcome State Fault Refusal :=
  s.finish do
    raiseIf (s.params.strCap < s.strLen.toNat) ⟨.invalidOperand, 2, 0⟩
    return { s with crcAcc := crcFold s.crcAcc (s.readBytes .str 0 s.strLen.toNat) }

end Sys2Proof.Machine
end

