-- ==== Sys2Proof/Machine/Hdec.lean ====
section
/-!
DEFINITION. The HDLC frame decoder (44_hdlc_decode.md). The sixteen steps of R171 stand in four groups, each
a function of the frame's bytes `F` alone.
-/

namespace Sys2Proof.Machine

/-- What a successful HDEC returns (10_state.md R40, 44_hdlc_decode.md R170). -/
structure ParsedFrame where
  cmd : FrameCmd
  ctrl : Byte
  client : Byte
  log : Word16
  phy : Word16
  alen : Nat
  sss : BitVec 3
  rrr : BitVec 3
  pay : List Byte
deriving DecidableEq, Repr

/-- Steps 1 to 6: length, flags, format nibble, declared length, FCS (44_hdlc_decode.md R171, R173 to
R176). -/
def hdecEnvelope (F : List Byte) : Except CmdError Unit := do
  let n := F.length
  raiseIf (n < 9) ⟨.invalidFraming, 1, 0⟩
  raiseIf (byteOf F 0 ≠ 0x7E) ⟨.invalidFraming, 2, 0⟩
  raiseIf (byteOf F (n - 1) ≠ 0x7E) ⟨.invalidFraming, 3, n - 1⟩
  raiseIf ((byteOf F 1).extractLsb' 4 4 ≠ 0xA) ⟨.invalidFraming, 4, 1⟩
  raiseIf (((byteOf F 1).extractLsb' 0 4 ++ byteOf F 2 : BitVec 12).toNat ≠ n - 2) ⟨.lengthMismatch, 0, 1⟩
  raiseIf (crc16 (slice F 1 (n - 3)) ≠ ofLe16 (byteOf F (n - 3)) (byteOf F (n - 2)))
    ⟨.checksumMismatch, 1, n - 3⟩

/-- Step 7, the walk over the server address: at most `room` more bytes, from index `p`, up to and including
the first byte whose bit 0 is 1; it gives those bytes and the index after them (44_hdlc_decode.md R171,
R177). -/
def hdecWalk (F : List Byte) (limit : Nat) : Nat → Nat → Except CmdError (List Byte × Nat)
  | 0, p => .error ⟨.invalidFraming, 5, p⟩
  | room + 1, p =>
    if limit ≤ p then .error ⟨.invalidFraming, 5, p⟩
    else if (byteOf F p).getLsbD 0 then .ok ([byteOf F p], p + 1)
    else
      match hdecWalk F limit room (p + 1) with
      | .error e => .error e
      | .ok (d, q) => .ok (byteOf F p :: d, q)

/-- Steps 7 to 9: the server address bytes, the client address and the index of the control byte
(44_hdlc_decode.md R171, R177). -/
def hdecAddresses (F : List Byte) : Except CmdError (List Byte × Byte × Nat) := do
  let limit := F.length - 3
  let (d, p) ← hdecWalk F limit 4 3
  raiseIf (d.length = 3) ⟨.invalidFraming, 5, p - 1⟩
  raiseIf (limit ≤ p ∨ (byteOf F p).getLsbD 0 = false) ⟨.invalidFraming, 6, p⟩
  raiseIf (limit ≤ p + 1) ⟨.invalidFraming, 7, p + 1⟩
  return (d, (addrBits (byteOf F p)).setWidth 8, p + 1)

/-- Step 10: the HCS and the information field, of the frame whose control byte is at `c`
(44_hdlc_decode.md R171, R178). -/
def hdecInfo (F : List Byte) (c : Nat) : Except CmdError (List Byte) := do
  let limit := F.length - 3
  let R := limit - (c + 1)
  raiseIf (R = 1 ∨ R = 2) ⟨.invalidFraming, 8, c + 1⟩
  if R = 0 then return []
  else
    raiseIf (crc16 (slice F 1 (c + 1)) ≠ ofLe16 (byteOf F (c + 1)) (byteOf F (c + 2)))
      ⟨.checksumMismatch, 2, c + 1⟩
    return slice F (c + 3) limit

/-- Steps 11 to 14: the bit 0x10, the classification, the LLC header and the capacity; it gives the command
and the payload (44_hdlc_decode.md R171, R179 to R182). -/
def hdecPayload (p : Config.Params) (sel : Bool) (c : Nat) (ctrl : Byte) (info : List Byte) :
    Except CmdError (FrameCmd × List Byte) := do
  raiseIf (ctrl.getLsbD 4 = false) ⟨.unsupportedSegmentation, 0, c⟩
  match p.tags.classify ctrl with
  | none => .error ⟨.invalidFraming, 9, c⟩
  | some cmd =>
    let llc := cmd = .I ∨ cmd = .UI
    raiseIf (llc ∧ info.take 3 ≠ llcRx sel) ⟨.invalidFraming, 10, if info = [] then c + 1 else c + 3⟩
    let pay := if llc then info.drop 3 else info
    raiseIf (p.payCap < pay.length) ⟨.capacityExceeded, 6, 0⟩
    return (cmd, pay)

/-- Steps 1 to 15: the record of the frame `F` (44_hdlc_decode.md R171). -/
def hdecParse (p : Config.Params) (sel : Bool) (F : List Byte) : Except CmdError ParsedFrame := do
  hdecEnvelope F
  let (d, client, c) ← hdecAddresses F
  let info ← hdecInfo F c
  let ctrl := byteOf F c
  let (cmd, pay) ← hdecPayload p sel c ctrl info
  return {
    cmd := cmd
    ctrl := ctrl
    client := client
    log := (serverOf d).1
    phy := (serverOf d).2
    alen := d.length
    sss := if cmd = .I then ctrlSend ctrl else 0
    rrr := if cmd = .I then ctrlRecv ctrl else 0
    pay := pay }

/-- The received frame `RXF[0..RXF_LEN)` (44_hdlc_decode.md R170). -/
def State.rxFrame (s : State) : List Byte := s.readBytes .rxf 0 s.rxfLen.toNat

/-- The decoder's result registers at their reset values and RXP_LEN 0, before a `fail` of HDEC raises
(44_hdlc_decode.md R184, 60_exceptions.md R276). -/
def State.clearRx (s : State) : State :=
  { s.setLen .rxp 0 with
    rxCmd := 15, rxCtrl := 0, rxClient := 0, rxLog := 0, rxPhy := 0, rxAlen := 0, rxSss := 0, rxRrr := 0 }

/-- Step 15: the results (44_hdlc_decode.md R171, R183). -/
def State.putRx (s : State) (r : ParsedFrame) : State :=
  { (s.writeBytes .rxp 0 r.pay).setLen .rxp (BitVec.ofNat 16 r.pay.length) with
    rxCmd := r.cmd.index.setWidth 4
    rxCtrl := r.ctrl
    rxClient := r.client
    rxLog := r.log
    rxPhy := r.phy
    rxAlen := BitVec.ofNat 3 r.alen
    rxSss := r.sss
    rxRrr := r.rrr }

/-- HDEC (44_hdlc_decode.md R171): step 0 raises with the results unchanged (R172); every later failure
clears them first (R184). -/
def execHdec (s : State) : Host.Outcome State Fault Refusal :=
  if Config.frameCap < s.rxfLen.toNat then s.finish (.error ⟨.invalidOperand, 4, 0⟩)
  else
    match hdecParse s.params s.llcRxSel s.rxFrame with
    | .error e => s.clearRx.finish (.error e)
    | .ok r => s.finish (.ok (s.putRx r))

end Sys2Proof.Machine
end

