-- ==== Sys2Proof/Machine/Henc.lean ====
section
/-!
DEFINITION. The HDLC frame encoder (43_hdlc_encode.md).
-/

namespace Sys2Proof.Machine

/-- `LEN` of a frame with `na` server address bytes and `ni` information bytes (30_encoding.md R86). -/
def frameLen (na ni : Nat) : Nat := if ni = 0 then 6 + na else 8 + na + ni

/-- FMT, LENLO, the address field and the control byte (43_hdlc_encode.md R152). -/
def frameHeader (LEN : Nat) (addr : List Byte) (ctrl : Byte) : List Byte :=
  [0xA0 ||| BitVec.ofNat 8 (LEN >>> 8 % 16), BitVec.ofNat 8 LEN] ++ addr ++ [ctrl]

/-- The bytes from FMT up to the FCS: the header, and with an information field the HCS and that field
(30_encoding.md R96). -/
def frameBody (hdr info : List Byte) : List Byte :=
  if info = [] then hdr else hdr ++ le16 (crc16 hdr) ++ info

/-- The whole frame: flags around the body and its FCS (30_encoding.md R84, R85, R96). -/
def frameOf (hdr info : List Byte) : List Byte :=
  [0x7E] ++ frameBody hdr info ++ le16 (crc16 (frameBody hdr info)) ++ [0x7E]

/-- The information field the encoder writes (30_encoding.md R98). -/
def State.txInfo (s : State) (c : FrameCmd) : List Byte :=
  (if c = .I then llcTx else []) ++ s.readBytes .txp 0 s.txpLen.toNat

/-- The checks of `henc(c)` before the frame is laid out, in their order; it gives `na` (43_hdlc_encode.md
R152, R153 orders 1 to 5). -/
def State.hencChecks (s : State) : Except CmdError Nat := do
  raiseIf (s.params.payCap < s.txpLen.toNat) ⟨.invalidOperand, 3, 0⟩
  match alenBytes s.srvAlen with
  | none => .error ⟨.invalidOperand, 5, 0⟩
  | some na =>
    raiseIf (0x7F < s.clientAddr.toNat) ⟨.invalidOperand, 6, 0⟩
    raiseIf (maxLog na < s.srvLog.toNat) ⟨.invalidOperand, 7, 0⟩
    raiseIf (maxPhy na < s.srvPhy.toNat) ⟨.invalidOperand, 8, 0⟩
    return na

/-- The frame of `henc(c)` with `na` server address bytes (43_hdlc_encode.md R152). -/
def State.txFrame (s : State) (c : FrameCmd) (na : Nat) : List Byte :=
  frameOf
    (frameHeader (frameLen na (s.txInfo c).length)
      (serverBytes s.srvLog s.srvPhy na ++ [clientByte s.clientAddr])
      (controlByte s.params.tags c s.sss s.rrr))
    (s.txInfo c)

/-- `henc(c)` (43_hdlc_encode.md R152). -/
def State.henc (s : State) (c : FrameCmd) : Except CmdError State := do
  let na ← s.hencChecks
  let LEN := frameLen na (s.txInfo c).length
  raiseIf (0xFFF < LEN) ⟨.capacityExceeded, 3, 0⟩
  return (s.writeBytes .txf 0 (s.txFrame c na)).setLen .txf (BitVec.ofNat 16 (LEN + 2))

/-- HENC.I (43_hdlc_encode.md R155). -/
def execHencI (s : State) : Host.Outcome State Fault Refusal := s.finish (s.henc .I)

/-- HENC.RR (43_hdlc_encode.md R156). -/
def execHencRr (s : State) : Host.Outcome State Fault Refusal := s.finish (s.henc .RR)

/-- HENC.RNR (43_hdlc_encode.md R157). -/
def execHencRnr (s : State) : Host.Outcome State Fault Refusal := s.finish (s.henc .RNR)

/-- HENC.SNRM (43_hdlc_encode.md R158). -/
def execHencSnrm (s : State) : Host.Outcome State Fault Refusal := s.finish (s.henc .SNRM)

/-- HENC.DISC (43_hdlc_encode.md R159). -/
def execHencDisc (s : State) : Host.Outcome State Fault Refusal := s.finish (s.henc .DISC)

/-- HENC.UI (43_hdlc_encode.md R160). -/
def execHencUi (s : State) : Host.Outcome State Fault Refusal := s.finish (s.henc .UI)

/-- HENC.UA (43_hdlc_encode.md R161). -/
def execHencUa (s : State) : Host.Outcome State Fault Refusal := s.finish (s.henc .UA)

/-- HENC.DM (43_hdlc_encode.md R162). -/
def execHencDm (s : State) : Host.Outcome State Fault Refusal := s.finish (s.henc .DM)

/-- HENC.FRMR (43_hdlc_encode.md R163). -/
def execHencFrmr (s : State) : Host.Outcome State Fault Refusal := s.finish (s.henc .FRMR)

end Sys2Proof.Machine
end

