-- ==== Sys2Proof/Machine/Seq.lean ====
section
/-!
DEFINITION. The modulo-8 sequence tracker (42_seq.md R140 to R143).
-/

namespace Sys2Proof.Machine

/-- SEQ.RESET (42_seq.md R141). -/
def execSeqReset (s : State) : Host.Outcome State Fault Refusal := s.finish (.ok { s with sss := 0, rrr := 0 })

/-- SEQ.TXDONE: modulo 8 by the width of SSS (42_seq.md R140, R142). -/
def execSeqTxdone (s : State) : Host.Outcome State Fault Refusal := s.finish (.ok { s with sss := s.sss + 1 })

/-- SEQ.RXDONE (42_seq.md R143). -/
def execSeqRxdone (s : State) : Host.Outcome State Fault Refusal := s.finish (.ok { s with rrr := s.rrr + 1 })

end Sys2Proof.Machine
end

