-- ==== Sys2Proof/Machine/System.lean ====
section
/-!
DEFINITION. The system commands NOP, SRST, CLRERR (40_system.md R121 to R123).
-/

namespace Sys2Proof.Machine

/-- NOP (40_system.md R121). -/
def execNop (s : State) : Host.Outcome State Fault Refusal := s.finish (.ok s)

/-- SRST: every register but CMD takes its reset value and every buffer byte becomes unspecified
(40_system.md R122). -/
def execSrst (s : State) : Host.Outcome State Fault Refusal := s.finish (.ok s.clearAll)

/-- CLRERR (40_system.md R123). -/
def execClrerr (s : State) : Host.Outcome State Fault Refusal := s.finish (.ok { s with errsticky := 0 })

end Sys2Proof.Machine
end

