-- ==== Sys2Proof/Machine/TlvCursor.lean ====
section
/-!
DEFINITION. The TLV cursor: the helper operations `append`, `dec_open`, `need`, `rsize_at` and the six cursor,
raw byte and length prefix commands (45_tlv_cursor.md). All sums are on natural numbers (R191).
-/

namespace Sys2Proof.Machine

/-- `append(bs)` (45_tlv_cursor.md R192). -/
def State.append (s : State) (bs : List Byte) : Except CmdError State := do
  raiseIf (s.params.tlbCap < s.tlbLen.toNat) ⟨.invalidOperand, 1, 0⟩
  raiseIf (s.params.tlbCap < s.tlbLen.toNat + bs.length) ⟨.capacityExceeded, 4, 0⟩
  return (s.writeBytes .tlb s.tlbLen.toNat bs).setLen .tlb (BitVec.ofNat 16 (s.tlbLen.toNat + bs.length))

/-- The operand check of every command that reads TLB (45_tlv_cursor.md R193, R198, R200). -/
def State.tlbCheck (s : State) : Except CmdError Unit :=
  raiseIf (s.params.tlbCap < s.tlbLen.toNat) ⟨.invalidOperand, 1, 0⟩

/-- `TLB[i]`. -/
def State.tlbAt (s : State) (i : Nat) : Byte := s.byteAt .tlb i

/-- `need(q, sub)`: all bytes at indices below `q` must exist; the offset reported is the cursor at the start
of the command (45_tlv_cursor.md R193). -/
def State.need (s : State) (q sub : Nat) : Except CmdError Unit :=
  raiseIf (s.tlbLen.toNat < q) ⟨.unexpectedEndOfData, sub, s.tlbCur.toNat⟩

/-- `dec_open(tag)`, giving `p` (45_tlv_cursor.md R193). -/
def State.decOpen (s : State) (tag : Byte) : Except CmdError Nat := do
  s.tlbCheck
  let p := s.tlbCur.toNat
  raiseIf (s.tlbLen.toNat ≤ p) ⟨.unexpectedEndOfData, 1, p⟩
  raiseIf (s.tlbAt p ≠ tag) ⟨.tagMismatch, 0, p⟩
  return p

/-- `rsize_at(q)`: the number and the count of prefix bytes (45_tlv_cursor.md R194, 30_encoding.md R102). -/
def State.rsizeAt (s : State) (q : Nat) : Except CmdError (Nat × Nat) := do
  s.need (q + 1) 2
  let b := (s.tlbAt q).toNat
  if b ≤ 0x80 then return (b, 1)
  else
    raiseIf (0x85 ≤ b) ⟨.malformedLength, 0, q⟩
    let k := b - 0x80
    s.need (q + 1 + k) 2
    return (ofBe (s.readBytes .tlb (q + 1) k), 1 + k)

/-- The two writes that end a decode: VAL and the cursor (45_tlv_cursor.md R198, R200). -/
def State.putVal (s : State) (v : Word64) (cur : Nat) : State :=
  { s with val := v, tlbCur := BitVec.ofNat 16 cur }

/-- TLV.CLR: no byte is written; the bytes of TLB are no longer below TLB_LEN (45_tlv_cursor.md R195,
10_state.md R43). -/
def execTlvClr (s : State) : Host.Outcome State Fault Refusal :=
  s.finish (.ok { s.setLen .tlb 0 with tlbCur := 0 })

/-- TLV.REW (45_tlv_cursor.md R196). -/
def execTlvRew (s : State) : Host.Outcome State Fault Refusal := s.finish (.ok { s with tlbCur := 0 })

/-- TLV.PUTB #b (45_tlv_cursor.md R197). -/
def execTlvPutb (b : Byte) (s : State) : Host.Outcome State Fault Refusal := s.finish (s.append [b])

/-- TLV.GETB (45_tlv_cursor.md R198). -/
def execTlvGetb (s : State) : Host.Outcome State Fault Refusal :=
  s.finish do
    s.tlbCheck
    let p := s.tlbCur.toNat
    raiseIf (s.tlbLen.toNat ≤ p) ⟨.unexpectedEndOfData, 1, p⟩
    return s.putVal (zext64 (s.tlbAt p).toNat) (p + 1)

/-- TLV.WSIZE (45_tlv_cursor.md R199). -/
def execTlvWsize (s : State) : Host.Outcome State Fault Refusal := s.finish (s.append (wsize s.count))

/-- TLV.RSIZE (45_tlv_cursor.md R200). -/
def execTlvRsize (s : State) : Host.Outcome State Fault Refusal :=
  s.finish do
    s.tlbCheck
    let p := s.tlbCur.toNat
    let (n, k) ← s.rsizeAt p
    return s.putVal (zext64 n) (p + k)

end Sys2Proof.Machine
end

