-- ==== Sys2Proof/Machine/TlvDec.lean ====
section
/-!
DEFINITION. The seventeen TLV decode commands (47_tlv_decode.md): each reads one complete tagged value at the
cursor (R240). All checks come before all writes.
-/

namespace Sys2Proof.Machine

/-- A count header (47_tlv_decode.md R241, R242). -/
def State.decCount (s : State) (t : TlvType) : Except CmdError State := do
  let p ← s.decOpen t.tag
  let (n, k) ← s.rsizeAt (p + 1)
  return s.putVal (zext64 n) (p + 1 + k)

/-- The fixed-width form with `w` content bytes and the conversion `conv` (47_tlv_decode.md section 3). -/
def State.decFixed (s : State) (t : TlvType) (w : Nat) (conv : Nat → Word64) : Except CmdError State := do
  let p ← s.decOpen t.tag
  s.need (p + 1 + w) 3
  return s.putVal (conv (ofBe (s.readBytes .tlb (p + 1) w))) (p + 1 + w)

/-- The string form: after the prefix `(m, k)`, `nbytes m` content bytes go to STR; it gives the prefix's
number and the state with STR, STR_LEN and TLB_CUR written (47_tlv_decode.md R244, R247). -/
def State.decString (s : State) (t : TlvType) (nbytes : Nat → Nat) : Except CmdError (Nat × State) := do
  let p ← s.decOpen t.tag
  let (m, k) ← s.rsizeAt (p + 1)
  let n := nbytes m
  s.need (p + 1 + k + n) 3
  raiseIf (s.params.strCap < n) ⟨.capacityExceeded, 5, p⟩
  return (m, { (s.writeBytes .str 0 (s.readBytes .tlb (p + 1 + k) n)).setLen .str (BitVec.ofNat 16 n) with
    tlbCur := BitVec.ofNat 16 (p + 1 + k + n) })

/-- TLV.DEC.ARR (47_tlv_decode.md R241). -/
def execTlvDecArr (s : State) : Host.Outcome State Fault Refusal := s.finish (s.decCount .arr)

/-- TLV.DEC.STRUCT (47_tlv_decode.md R242). -/
def execTlvDecStruct (s : State) : Host.Outcome State Fault Refusal := s.finish (s.decCount .struct)

/-- TLV.DEC.BOOL: any non-zero content byte is true (47_tlv_decode.md R243). -/
def execTlvDecBool (s : State) : Host.Outcome State Fault Refusal :=
  s.finish (s.decFixed .bool 1 fun x => if x = 0 then 0 else 1)

/-- TLV.DEC.ENUM (47_tlv_decode.md R255). -/
def execTlvDecEnum (s : State) : Host.Outcome State Fault Refusal := s.finish (s.decFixed .enum 1 zext64)

/-- TLV.DEC.I8 (47_tlv_decode.md R249). -/
def execTlvDecI8 (s : State) : Host.Outcome State Fault Refusal := s.finish (s.decFixed .i8 1 (sext64 8))

/-- TLV.DEC.U8 (47_tlv_decode.md R251). -/
def execTlvDecU8 (s : State) : Host.Outcome State Fault Refusal := s.finish (s.decFixed .u8 1 zext64)

/-- TLV.DEC.I16 (47_tlv_decode.md R250). -/
def execTlvDecI16 (s : State) : Host.Outcome State Fault Refusal := s.finish (s.decFixed .i16 2 (sext64 16))

/-- TLV.DEC.U16 (47_tlv_decode.md R252). -/
def execTlvDecU16 (s : State) : Host.Outcome State Fault Refusal := s.finish (s.decFixed .u16 2 zext64)

/-- TLV.DEC.I32 (47_tlv_decode.md R245). -/
def execTlvDecI32 (s : State) : Host.Outcome State Fault Refusal := s.finish (s.decFixed .i32 4 (sext64 32))

/-- TLV.DEC.U32 (47_tlv_decode.md R246). -/
def execTlvDecU32 (s : State) : Host.Outcome State Fault Refusal := s.finish (s.decFixed .u32 4 zext64)

/-- TLV.DEC.I64 (47_tlv_decode.md R253). -/
def execTlvDecI64 (s : State) : Host.Outcome State Fault Refusal := s.finish (s.decFixed .i64 8 zext64)

/-- TLV.DEC.U64 (47_tlv_decode.md R254). -/
def execTlvDecU64 (s : State) : Host.Outcome State Fault Refusal := s.finish (s.decFixed .u64 8 zext64)

/-- TLV.DEC.F32 (47_tlv_decode.md R256). -/
def execTlvDecF32 (s : State) : Host.Outcome State Fault Refusal := s.finish (s.decFixed .f32 4 zext64)

/-- TLV.DEC.F64 (47_tlv_decode.md R257). -/
def execTlvDecF64 (s : State) : Host.Outcome State Fault Refusal := s.finish (s.decFixed .f64 8 zext64)

/-- TLV.DEC.OSTR: VAL is unchanged (47_tlv_decode.md R247). -/
def execTlvDecOstr (s : State) : Host.Outcome State Fault Refusal :=
  s.finish do
    let (_, t) ← s.decString .ostr id
    return t

/-- TLV.DEC.VSTR: VAL is unchanged (47_tlv_decode.md R248). -/
def execTlvDecVstr (s : State) : Host.Outcome State Fault Refusal :=
  s.finish do
    let (_, t) ← s.decString .vstr id
    return t

/-- TLV.DEC.BSTR: VAL takes the number of bits (47_tlv_decode.md R244). -/
def execTlvDecBstr (s : State) : Host.Outcome State Fault Refusal :=
  s.finish do
    let (nbits, t) ← s.decString .bstr bytesOfBits
    return { t with val := zext64 nbits }

end Sys2Proof.Machine
end

