-- ==== Sys2Proof/Machine/TlvEnc.lean ====
section
/-!
DEFINITION. The seventeen TLV encode commands (46_tlv_encode.md): each appends one complete tagged value to
TLB (R210).
-/

namespace Sys2Proof.Machine

/-- A count header: the tag and the length prefix of `VAL[31:0]` (46_tlv_encode.md R211, R212). -/
def State.encCount (s : State) (t : TlvType) : Except CmdError State := s.append (t.tag :: wsize s.count)

/-- A fixed-width value: the tag and the low `w` bytes of VAL, big-endian (30_encoding.md R103). -/
def State.encFixed (s : State) (t : TlvType) (w : Nat) : Except CmdError State :=
  s.append (t.tag :: s.valBytes w)

/-- The content of the string operand, `STR[0..STR_LEN)` (10_state.md R35). -/
def State.strBytes (s : State) : List Byte := s.readBytes .str 0 s.strLen.toNat

/-- An octet or visible string: the tag, the prefix of STR_LEN and the bytes (46_tlv_encode.md R217, R218). -/
def State.encString (s : State) (t : TlvType) : Except CmdError State := do
  raiseIf (s.params.strCap < s.strLen.toNat) ⟨.invalidOperand, 2, 0⟩
  s.append (t.tag :: (wsize s.strLen.toNat ++ s.strBytes))

/-- TLV.ENC.ARR (46_tlv_encode.md R211). -/
def execTlvEncArr (s : State) : Host.Outcome State Fault Refusal := s.finish (s.encCount .arr)

/-- TLV.ENC.STRUCT (46_tlv_encode.md R212). -/
def execTlvEncStruct (s : State) : Host.Outcome State Fault Refusal := s.finish (s.encCount .struct)

/-- TLV.ENC.BOOL: the content is 00 for a VAL of 0 and 01 for any other (46_tlv_encode.md R213). -/
def execTlvEncBool (s : State) : Host.Outcome State Fault Refusal :=
  s.finish (s.append [TlvType.bool.tag, if s.val = 0 then 0x00 else 0x01])

/-- TLV.ENC.ENUM (46_tlv_encode.md R219). -/
def execTlvEncEnum (s : State) : Host.Outcome State Fault Refusal := s.finish (s.encFixed .enum 1)

/-- TLV.ENC.I8 (46_tlv_encode.md R222). -/
def execTlvEncI8 (s : State) : Host.Outcome State Fault Refusal := s.finish (s.encFixed .i8 1)

/-- TLV.ENC.U8 (46_tlv_encode.md R224). -/
def execTlvEncU8 (s : State) : Host.Outcome State Fault Refusal := s.finish (s.encFixed .u8 1)

/-- TLV.ENC.I16 (46_tlv_encode.md R223). -/
def execTlvEncI16 (s : State) : Host.Outcome State Fault Refusal := s.finish (s.encFixed .i16 2)

/-- TLV.ENC.U16 (46_tlv_encode.md R225). -/
def execTlvEncU16 (s : State) : Host.Outcome State Fault Refusal := s.finish (s.encFixed .u16 2)

/-- TLV.ENC.I32 (46_tlv_encode.md R215). -/
def execTlvEncI32 (s : State) : Host.Outcome State Fault Refusal := s.finish (s.encFixed .i32 4)

/-- TLV.ENC.U32 (46_tlv_encode.md R216). -/
def execTlvEncU32 (s : State) : Host.Outcome State Fault Refusal := s.finish (s.encFixed .u32 4)

/-- TLV.ENC.I64 (46_tlv_encode.md R226). -/
def execTlvEncI64 (s : State) : Host.Outcome State Fault Refusal := s.finish (s.encFixed .i64 8)

/-- TLV.ENC.U64 (46_tlv_encode.md R227). -/
def execTlvEncU64 (s : State) : Host.Outcome State Fault Refusal := s.finish (s.encFixed .u64 8)

/-- TLV.ENC.F32 (46_tlv_encode.md R220). -/
def execTlvEncF32 (s : State) : Host.Outcome State Fault Refusal := s.finish (s.encFixed .f32 4)

/-- TLV.ENC.F64 (46_tlv_encode.md R221). -/
def execTlvEncF64 (s : State) : Host.Outcome State Fault Refusal := s.finish (s.encFixed .f64 8)

/-- TLV.ENC.OSTR (46_tlv_encode.md R217). -/
def execTlvEncOstr (s : State) : Host.Outcome State Fault Refusal := s.finish (s.encString .ostr)

/-- TLV.ENC.VSTR (46_tlv_encode.md R218). -/
def execTlvEncVstr (s : State) : Host.Outcome State Fault Refusal := s.finish (s.encString .vstr)

/-- TLV.ENC.BSTR: the prefix counts bits (46_tlv_encode.md R214). -/
def execTlvEncBstr (s : State) : Host.Outcome State Fault Refusal :=
  s.finish do
    raiseIf (s.params.strCap < s.strLen.toNat) ⟨.invalidOperand, 2, 0⟩
    raiseIf (bytesOfBits s.count ≠ s.strLen.toNat) ⟨.invalidOperand, 9, 0⟩
    s.append (TlvType.bstr.tag :: (wsize s.count ++ s.strBytes))

end Sys2Proof.Machine
end

