-- ==== Sys2Proof/Machine/Xfer.lean ====
section
/-!
DEFINITION. The transfer commands (40_system.md R124 to R126).
-/

namespace Sys2Proof.Machine

/-- Copies the first `n` bytes of one buffer to the start of another and sets the other's length register
(40_system.md section 3). -/
def State.copyBuf (s : State) (src dst : BufName) (n : Word16) : State :=
  (s.writeBytes dst 0 (s.readBytes src 0 n.toNat)).setLen dst n

/-- XFER.T2P (40_system.md R124). -/
def execXferT2p (s : State) : Host.Outcome State Fault Refusal :=
  s.finish do
    raiseIf (s.params.tlbCap < s.tlbLen.toNat) ⟨.invalidOperand, 1, 0⟩
    raiseIf (s.params.payCap < s.tlbLen.toNat) ⟨.capacityExceeded, 1, 0⟩
    return s.copyBuf .tlb .txp s.tlbLen

/-- XFER.P2T (40_system.md R125). -/
def execXferP2t (s : State) : Host.Outcome State Fault Refusal :=
  s.finish do
    raiseIf (s.params.tlbCap < s.rxpLen.toNat) ⟨.capacityExceeded, 2, 0⟩
    return { s.copyBuf .rxp .tlb s.rxpLen with tlbCur := 0 }

/-- XFER.F2R (40_system.md R126). -/
def execXferF2r (s : State) : Host.Outcome State Fault Refusal :=
  s.finish (.ok (s.copyBuf .txf .rxf s.txfLen))

end Sys2Proof.Machine
end

