-- ==== Sys2Proof/Machine/Dispatch.lean ====
section
/-!
DEFINITION. The dispatch of the 62 commands to their meanings (40_system.md R120 step 3).
-/

namespace Sys2Proof.Machine

def exec (i : Instr) (s : State) : Host.Outcome State Fault Refusal :=
  match i with
  | .nop => Sys2Proof.Machine.execNop s
  | .srst => Sys2Proof.Machine.execSrst s
  | .clrerr => Sys2Proof.Machine.execClrerr s
  | .crcInit => Sys2Proof.Machine.execCrcInit s
  | .crcUpd b => Sys2Proof.Machine.execCrcUpd b s
  | .crcUpds => Sys2Proof.Machine.execCrcUpds s
  | .seqReset => Sys2Proof.Machine.execSeqReset s
  | .seqTxdone => Sys2Proof.Machine.execSeqTxdone s
  | .seqRxdone => Sys2Proof.Machine.execSeqRxdone s
  | .hencI => Sys2Proof.Machine.execHencI s
  | .hencRr => Sys2Proof.Machine.execHencRr s
  | .hencRnr => Sys2Proof.Machine.execHencRnr s
  | .hencSnrm => Sys2Proof.Machine.execHencSnrm s
  | .hencDisc => Sys2Proof.Machine.execHencDisc s
  | .hencUi => Sys2Proof.Machine.execHencUi s
  | .hencUa => Sys2Proof.Machine.execHencUa s
  | .hencDm => Sys2Proof.Machine.execHencDm s
  | .hencFrmr => Sys2Proof.Machine.execHencFrmr s
  | .hdec => Sys2Proof.Machine.execHdec s
  | .xferT2p => Sys2Proof.Machine.execXferT2p s
  | .xferP2t => Sys2Proof.Machine.execXferP2t s
  | .xferF2r => Sys2Proof.Machine.execXferF2r s
  | .tlvEncArr => Sys2Proof.Machine.execTlvEncArr s
  | .tlvEncStruct => Sys2Proof.Machine.execTlvEncStruct s
  | .tlvEncBool => Sys2Proof.Machine.execTlvEncBool s
  | .tlvEncBstr => Sys2Proof.Machine.execTlvEncBstr s
  | .tlvEncI32 => Sys2Proof.Machine.execTlvEncI32 s
  | .tlvEncU32 => Sys2Proof.Machine.execTlvEncU32 s
  | .tlvEncOstr => Sys2Proof.Machine.execTlvEncOstr s
  | .tlvEncVstr => Sys2Proof.Machine.execTlvEncVstr s
  | .tlvEncI8 => Sys2Proof.Machine.execTlvEncI8 s
  | .tlvEncI16 => Sys2Proof.Machine.execTlvEncI16 s
  | .tlvEncU8 => Sys2Proof.Machine.execTlvEncU8 s
  | .tlvEncU16 => Sys2Proof.Machine.execTlvEncU16 s
  | .tlvEncI64 => Sys2Proof.Machine.execTlvEncI64 s
  | .tlvEncU64 => Sys2Proof.Machine.execTlvEncU64 s
  | .tlvEncEnum => Sys2Proof.Machine.execTlvEncEnum s
  | .tlvEncF32 => Sys2Proof.Machine.execTlvEncF32 s
  | .tlvEncF64 => Sys2Proof.Machine.execTlvEncF64 s
  | .tlvDecArr => Sys2Proof.Machine.execTlvDecArr s
  | .tlvDecStruct => Sys2Proof.Machine.execTlvDecStruct s
  | .tlvDecBool => Sys2Proof.Machine.execTlvDecBool s
  | .tlvDecBstr => Sys2Proof.Machine.execTlvDecBstr s
  | .tlvDecI32 => Sys2Proof.Machine.execTlvDecI32 s
  | .tlvDecU32 => Sys2Proof.Machine.execTlvDecU32 s
  | .tlvDecOstr => Sys2Proof.Machine.execTlvDecOstr s
  | .tlvDecVstr => Sys2Proof.Machine.execTlvDecVstr s
  | .tlvDecI8 => Sys2Proof.Machine.execTlvDecI8 s
  | .tlvDecI16 => Sys2Proof.Machine.execTlvDecI16 s
  | .tlvDecU8 => Sys2Proof.Machine.execTlvDecU8 s
  | .tlvDecU16 => Sys2Proof.Machine.execTlvDecU16 s
  | .tlvDecI64 => Sys2Proof.Machine.execTlvDecI64 s
  | .tlvDecU64 => Sys2Proof.Machine.execTlvDecU64 s
  | .tlvDecEnum => Sys2Proof.Machine.execTlvDecEnum s
  | .tlvDecF32 => Sys2Proof.Machine.execTlvDecF32 s
  | .tlvDecF64 => Sys2Proof.Machine.execTlvDecF64 s
  | .tlvWsize => Sys2Proof.Machine.execTlvWsize s
  | .tlvRsize => Sys2Proof.Machine.execTlvRsize s
  | .tlvPutb b => Sys2Proof.Machine.execTlvPutb b s
  | .tlvGetb => Sys2Proof.Machine.execTlvGetb s
  | .tlvClr => Sys2Proof.Machine.execTlvClr s
  | .tlvRew => Sys2Proof.Machine.execTlvRew s

end Sys2Proof.Machine
end

