-- ==== Sys2Proof/Machine/HostPort.lean ====
section
/-!
DEFINITION. What the host does between commands: register and buffer accesses and the reset input
(10_state.md R44, R45; 30_encoding.md R109; 70_reset_and_hazards.md R300, R318), and the fetch of the command
word from a write to CMD (10_state.md R22).
-/

namespace Sys2Proof.Machine

/-- Access codes of the registers (10_state.md section 2). -/
inductive Access where
  /-- The host may read and write. -/
  | RW
  /-- The host may read; a write is ignored. -/
  | RO
  /-- A host write starts a command. -/
  | W
deriving DecidableEq, Repr

/-- The access code of a register (10_state.md section 2). -/
def regAccess : Reg → Access
  | .cmd => .W
  | .cfg | .clientAddr | .srvLog | .srvPhy | .sss | .rrr | .crcAcc | .val | .strLen | .txpLen | .rxfLen
  | .tlbLen | .tlbCur => .RW
  | .status | .errinfo | .errsticky | .crcOut | .txfLen | .rxpLen | .rxCmd | .rxCtrl | .rxClient | .rxLog
  | .rxPhy | .rxAlen | .rxSss | .rxRrr => .RO

/-- The width of a register in bits (10_state.md section 2). -/
def regWidth : Reg → Nat
  | .cmd => 16 | .status => 8 | .errinfo => 32 | .errsticky => 16 | .cfg => 8 | .clientAddr => 8
  | .srvLog => 16 | .srvPhy => 16 | .sss => 3 | .rrr => 3 | .crcAcc => 16 | .crcOut => 16 | .val => 64
  | .strLen => 16 | .txpLen => 16 | .txfLen => 16 | .rxfLen => 16 | .rxpLen => 16 | .rxCmd => 4
  | .rxCtrl => 8 | .rxClient => 8 | .rxLog => 16 | .rxPhy => 16 | .rxAlen => 3 | .rxSss => 3 | .rxRrr => 3
  | .tlbLen => 16 | .tlbCur => 16

/-- The register of a number (10_state.md section 2; 20_memory.md R60: numbers 0 to 27). -/
def regOfNumber? : Nat → Option Reg
  | 0 => some .cmd | 1 => some .status | 2 => some .errinfo | 3 => some .errsticky | 4 => some .cfg
  | 5 => some .clientAddr | 6 => some .srvLog | 7 => some .srvPhy | 8 => some .sss | 9 => some .rrr
  | 10 => some .crcAcc | 11 => some .crcOut | 12 => some .val | 13 => some .strLen | 14 => some .txpLen
  | 15 => some .txfLen | 16 => some .rxfLen | 17 => some .rxpLen | 18 => some .rxCmd | 19 => some .rxCtrl
  | 20 => some .rxClient | 21 => some .rxLog | 22 => some .rxPhy | 23 => some .rxAlen | 24 => some .rxSss
  | 25 => some .rxRrr | 26 => some .tlbLen | 27 => some .tlbCur
  | _ => none

/-- The value of a register, zero-extended to the bus (00_scope.md R10; assumption 11). CRC_OUT is CRC_ACC
XOR 0xFFFF (10_state.md R33). -/
def State.readReg (s : State) : Reg → Word64
  | .cmd => s.cmd.setWidth 64
  | .status => s.status.setWidth 64
  | .errinfo => s.errinfo.setWidth 64
  | .errsticky => s.errsticky.setWidth 64
  | .cfg => s.cfg.setWidth 64
  | .clientAddr => s.clientAddr.setWidth 64
  | .srvLog => s.srvLog.setWidth 64
  | .srvPhy => s.srvPhy.setWidth 64
  | .sss => s.sss.setWidth 64
  | .rrr => s.rrr.setWidth 64
  | .crcAcc => s.crcAcc.setWidth 64
  | .crcOut => (s.crcAcc ^^^ 0xFFFF).setWidth 64
  | .val => s.val
  | .strLen => s.strLen.setWidth 64
  | .txpLen => s.txpLen.setWidth 64
  | .txfLen => s.txfLen.setWidth 64
  | .rxfLen => s.rxfLen.setWidth 64
  | .rxpLen => s.rxpLen.setWidth 64
  | .rxCmd => s.rxCmd.setWidth 64
  | .rxCtrl => s.rxCtrl.setWidth 64
  | .rxClient => s.rxClient.setWidth 64
  | .rxLog => s.rxLog.setWidth 64
  | .rxPhy => s.rxPhy.setWidth 64
  | .rxAlen => s.rxAlen.setWidth 64
  | .rxSss => s.rxSss.setWidth 64
  | .rxRrr => s.rxRrr.setWidth 64
  | .tlbLen => s.tlbLen.setWidth 64
  | .tlbCur => s.tlbCur.setWidth 64

/-- A host write of a register other than CMD: the low bits that fit are stored, reserved fields stay zero,
and a write to a read-only register is ignored (10_state.md R26, R44, R45). For CMD it stores the word
(R22); running the command is the step's. -/
def State.writeReg (s : State) (r : Reg) (v : Word64) : State :=
  match r with
  | .cmd => { s with cmd := v.setWidth 16 }
  | .cfg => { s with cfg := v.setWidth 8 &&& 0x07 }
  | .clientAddr => { s with clientAddr := v.setWidth 8 }
  | .srvLog => { s with srvLog := v.setWidth 16 }
  | .srvPhy => { s with srvPhy := v.setWidth 16 }
  | .sss => { s with sss := v.setWidth 3 }
  | .rrr => { s with rrr := v.setWidth 3 }
  | .crcAcc => { s with crcAcc := v.setWidth 16 }
  | .val => { s with val := v }
  | .strLen => s.setLen .str (v.setWidth 16)
  | .txpLen => s.setLen .txp (v.setWidth 16)
  | .rxfLen => s.setLen .rxf (v.setWidth 16)
  | .tlbLen => s.setLen .tlb (v.setWidth 16)
  | .tlbCur => { s with tlbCur := v.setWidth 16 }
  | .status | .errinfo | .errsticky | .crcOut | .txfLen | .rxpLen | .rxCmd | .rxCtrl | .rxClient | .rxLog
  | .rxPhy | .rxAlen | .rxSss | .rxRrr => s

/-- The buffers the host may write (10_state.md R42, R44). -/
def hostWritable : BufName → Bool
  | .rxf | .txp | .tlb | .str => true
  | .txf | .rxp => false

/-- A host write of bytes: those below the capacity are stored, the others and every write to TXF or RXP are
ignored; the length register is unchanged (10_state.md R44, 30_encoding.md R109). -/
def State.hostWriteBytes (s : State) (b : BufName) (i : Nat) (bs : List Byte) : State :=
  if hostWritable b then s.writeBytes b i (bs.take (s.cap b - i)) else s

/-- The byte a host read returns: below the length register the byte of the buffer, at or above it any value
(10_state.md R43, 70_reset_and_hazards.md R318; assumption 5). -/
def State.hostByteAt (s : State) (b : BufName) (i : Nat) : Byte :=
  if i < (s.len b).toNat then s.byteAt b i else Config.unspecifiedRead b s.hostReads i

/-- A host action other than a write to CMD (70_reset_and_hazards.md R318). A read at or beyond the capacity
faults: no such byte exists (assumption 6, DESIGN CHOICE, safe). So does a read of no byte, `n = 0`, from an
index above the capacity, of which the spec says nothing (assumption 6, the same choice). -/
def State.hostAccess (s : State) : HostAction → Host.Outcome State Fault Refusal
  | .wr r v => .next (s.writeReg r v)
  | .wrb b i bs => .next (s.hostWriteBytes b i bs)
  | .rd r => .next { s with busRead := .reg (s.readReg r) }
  | .rdb b i n =>
    if s.cap b < i + n then .fault (.hostReadBeyondCapacity b)
    else
      .next { s with
        busRead := .bytes ((List.range n).map fun k => s.hostByteAt b (i + k))
        hostReads := s.hostReads + 1 }
  | .reset => .next s.hardReset

/-- The command word of a host action: the low 16 bits of what the host writes to CMD (10_state.md R22,
R45). -/
def fetchWord : HostAction → Option Word16
  | .wr .cmd v => some (v.setWidth 16)
  | _ => none

end Sys2Proof.Machine
end

