-- ==== Sys2Proof/Machine/Prologue.lean ====
section
/-!
DEFINITION. The prologue every command shares (40_system.md R120), and one host action as a whole
(70_reset_and_hazards.md R318).
-/

namespace Sys2Proof.Machine

/-- The prologue of every command and the command (40_system.md R120): CMD takes the word, an illegal word
raises IllegalCommand(0, 0), a legal one runs. -/
def runCommand (w : Word16) (s : State) : Host.Outcome State Fault Refusal :=
  match decode w with
  | .ok i => exec i { s with cmd := w }
  | .error _ => .next (State.raise { s with cmd := w } illegalCommand)

/-- One host action: a write to CMD runs a command, any other is an access (70_reset_and_hazards.md R318). -/
def perform (a : HostAction) (s : State) : Host.Outcome State Fault Refusal :=
  match fetchWord a with
  | some w => runCommand w s
  | none => s.hostAccess a

end Sys2Proof.Machine
end

