-- ==== Sys2Proof/Machine/Step.lean ====
section
/-!
DEFINITION. One step: the next action of the host (70_reset_and_hazards.md R318), which is a command when it
writes CMD (40_system.md R120). With no action to come the block is idle and holds its state
(60_exceptions.md R285).
-/

namespace Sys2Proof.Machine

/-- One step of the block (assumption 1). -/
def step (s : State) : Host.Outcome State Fault Refusal :=
  match s.hostQueue with
  | [] => .next s
  | a :: rest => perform a { s with hostQueue := rest }

/-- `s` with a write of the command word `w` to CMD as the host's next action (assumption 1). -/
def State.withFetchWord (s : State) (nbits w : Nat) : State :=
  { s with hostQueue := .wr .cmd (BitVec.ofNat 64 (w % 2 ^ nbits)) :: s.hostQueue }

end Sys2Proof.Machine
end

