-- ==== Sys2Proof/Safety.lean ====
section
/-!
DEFINITION. What counts as a sound state of the block, in the terms the statements use (10_state.md R40, R50),
and what it means that a step stores bytes in a buffer and nothing else there.
-/

namespace Sys2Proof.Machine

/-- The buffers are in canonical form and hold no byte at or above a capacity (20_memory.md R60, R73). -/
abbrev State.buffersOk (s : State) : Prop :=
  ∀ b : BufName, (s.buf b).cells.wf ∧ ∀ c ∈ (s.buf b).cells, c.1 < s.cap b

/-- The decoder's result registers hold either "no frame" or a legal record (10_state.md R40). -/
abbrev State.resultsOk (s : State) : Prop :=
  (s.rxCmd = 15 ∧ s.rxCtrl = 0 ∧ s.rxClient = 0 ∧ s.rxLog = 0 ∧ s.rxPhy = 0 ∧ s.rxAlen = 0 ∧ s.rxSss = 0
      ∧ s.rxRrr = 0 ∧ s.rxpLen = 0)
    ∨ (s.rxCmd.toNat ≤ 8 ∧ s.rxCtrl.getLsbD 4 = true ∧ s.rxClient.toNat ≤ 127
      ∧ (s.rxAlen = 1 ∧ s.rxLog.toNat ≤ 127 ∧ s.rxPhy = 0
        ∨ s.rxAlen = 2 ∧ s.rxLog.toNat ≤ 127 ∧ s.rxPhy.toNat ≤ 127
        ∨ s.rxAlen = 4 ∧ s.rxLog.toNat ≤ 16383 ∧ s.rxPhy.toNat ≤ 16383)
      ∧ (s.rxCmd = 0 ∨ s.rxSss = 0 ∧ s.rxRrr = 0))

/-- What every step keeps, whatever the host does (10_state.md R23 to R26, R40, R50; 00_scope.md R6). -/
structure State.Inv (s : State) : Prop where
  params : s.params.wf = true
  status : s.status.toNat ≤ 10
  errinfo : s.errinfo.extractLsb' 24 8 = 0
  errsticky : s.errsticky &&& 0xF801 = 0
  cfg : s.cfg &&& 0xF8 = 0
  txfLen : s.txfLen.toNat ≤ Config.frameCap
  rxpLen : s.rxpLen.toNat ≤ s.params.payCap
  results : s.resultsOk
  buffers : s.buffersOk

/-- What every command keeps and the host can break (10_state.md R41, R50). -/
abbrev State.cursorOk (s : State) : Prop :=
  s.tlbCur.toNat ≤ s.tlbLen.toNat ∧ s.tlbLen.toNat ≤ s.params.tlbCap

/-- The frame in TXF, if there is one, is one that HDEC accepts under one of its two LLC selections, or a UI
frame that it refuses only because its payload does not begin with the LLC bytes (10_state.md R50,
44_hdlc_decode.md R185). -/
def State.txfOk (s : State) : Prop :=
  s.txfLen = 0 ∨
    let F := s.readBytes .txf 0 s.txfLen.toNat
    (∃ sel r, hdecParse s.params sel F = .ok r) ∨
      ∃ d client c off, hdecAddresses F = .ok (d, client, c)
        ∧ s.params.tags.classify (byteOf F c) = some .UI
        ∧ ∀ sel, hdecParse s.params sel F = .error ⟨.invalidFraming, 10, off⟩

/-- The step from `s` to `t` stores `bs` at `b[i..]` and changes no other byte of `b`; where it lowers the
length register of `b`, the bytes at and above the new length are unspecified instead (10_state.md R43). -/
def storesOnly (b : BufName) (i : Nat) (bs : List Byte) (s t : State) : Prop :=
  (∀ k v, bs[k]? = some v → t.byteAt b (i + k) = v)
    ∧ ∀ j, j < i ∨ i + bs.length ≤ j →
        if t.len b < s.len b then (t.len b).toNat ≤ j → (t.buf b).cells.get? j = none
        else t.byteAt b j = s.byteAt b j

/-- A step's next state, changed by `f`; a fault or refusal stays. -/
def mapNext (f : State → State) : Host.Outcome State Fault Refusal → Host.Outcome State Fault Refusal
  | .next t => .next (f t)
  | .fault r => .fault r
  | .refused r => .refused r

/-- The six buffers of `t` in place of those of `s`: two states that agree after it agree in every register
and in every other field. -/
def State.withBuffers (s t : State) : State :=
  { s with txf := t.txf, rxf := t.rxf, txp := t.txp, rxp := t.rxp, tlb := t.tlb, str := t.str }

end Sys2Proof.Machine
end

