-- ==== Sys2Proof/Certificates/Slice0/Obligations.lean ====
section
/-!
DEFINITION. The statements for the provers. The helper definitions under Sys2Proof.Claims write out the tables
of the spec independently of the meanings.
-/

open Sys2Proof Sys2Proof.Machine

namespace Sys2Proof.Claims

/-- The command ended with `done`: STATUS and ERRINFO are 0 (60_exceptions.md R275). -/
def ended (t : State) : Prop := t.status = 0 ∧ t.errinfo = 0

/-- `exec i s` ends with `E(sub, off)` from `s`: STATUS, ERRINFO and one bit of ERRSTICKY are written and
nothing else (60_exceptions.md R276). -/
def raises (i : Instr) (s : State) (code sub off : Nat) : Prop :=
  exec i s = .next { s with
    status := BitVec.ofNat 8 code
    errinfo := BitVec.ofNat 32 (sub * 65536 + off)
    errsticky := s.errsticky ||| 1#16 <<< code }

/-- HDEC fails with `E(sub, off)` after its results are cleared (44_hdlc_decode.md R184). -/
def hdecFails (s : State) (code sub off : Nat) : Prop :=
  exec .hdec s = .next { s.clearRx with
    status := BitVec.ofNat 8 code
    errinfo := BitVec.ofNat 32 (sub * 65536 + off)
    errsticky := s.errsticky ||| 1#16 <<< code }

/-- The value of a register after reset (10_state.md section 2, column Reset). -/
def resetValue : Reg → Word64
  | .crcAcc => 0xFFFF
  | .rxCmd => 15
  | _ => 0

/-- One bit of a byte of a sequence inverted. -/
def flipBit (F : List Byte) (i k : Nat) : List Byte := F.set i (byteOf F i ^^^ 1#8 <<< k)

/-- One of the eight single-bit steps of 41_crc.md R133 (a), for the data bit `b`. -/
def crcBit (a : Word16) (b : Bool) : Word16 :=
  if (a.getLsbD 0 ^^ b) then a >>> 1 ^^^ 0x8408 else a >>> 1

/-- `exec i s` appends `bs` to TLB and ends, or raises because TLB_LEN is out of range or the bytes do not fit
(45_tlv_cursor.md R192). -/
def appendsOrRaises (i : Instr) (s : State) (bs : List Byte) : Prop :=
  (s.tlbLen.toNat + bs.length ≤ s.params.tlbCap →
    ∃ t, exec i s = .next t ∧ storesOnly .tlb s.tlbLen.toNat bs s t
      ∧ t.tlbLen.toNat = s.tlbLen.toNat + bs.length ∧ ended t
      ∧ { t with tlb := s.tlb, tlbLen := s.tlbLen, status := s.status, errinfo := s.errinfo } = s)
  ∧ (s.params.tlbCap < s.tlbLen.toNat → raises i s 9 1 0)
  ∧ (s.tlbLen.toNat ≤ s.params.tlbCap → s.params.tlbCap < s.tlbLen.toNat + bs.length → raises i s 10 4 0)

/-- The number of a frame command, written out from 10_state.md R40 and 30_encoding.md R81. -/
def cmdNumber : FrameCmd → Nat
  | .I => 0 | .RR => 1 | .RNR => 2 | .SNRM => 3 | .DISC => 4 | .UI => 5 | .UA => 6 | .DM => 7 | .FRMR => 8

/-- The LLC header HDEC requires, written out from 30_encoding.md R97. -/
def llcHeader (sel : Bool) : List Byte := if sel then [0xE6, 0xE6, 0x00] else [0xE6, 0xE7, 0x00]

/-- The tag of a TLV type, written out from 30_encoding.md R100. -/
def tagNumber : TlvType → Byte
  | .i8 => 15 | .u8 => 17 | .i16 => 16 | .u16 => 18 | .i32 => 5 | .u32 => 6 | .i64 => 20 | .u64 => 21 | .f32 => 23
  | .f64 => 24 | .bool => 3 | .enum => 22 | .ostr => 9 | .vstr => 10 | .bstr => 4 | .arr => 1 | .struct => 2

/-- The default classification of a control byte, written out from 30_encoding.md R93. -/
def defaultClass (ctrl : Byte) : Option FrameCmd :=
  let u := ctrl &&& 0xEF#8
  if u.getLsbD 0 = false then some .I
  else if u.toNat % 16 = 0x1 then some .RR
  else if u.toNat % 16 = 0x5 then some .RNR
  else if u = 0x83 then some .SNRM
  else if u = 0x43 then some .DISC
  else if u = 0x03 then some .UI
  else if u = 0x63 then some .UA
  else if u = 0x0F then some .DM
  else if u = 0x87 then some .FRMR
  else none

/-- The number of content bytes of the eleven fixed-width types other than BOOLEAN (30_encoding.md R100). -/
def fixedWidth : TlvType → Option Nat
  | .i8 | .u8 | .enum => some 1
  | .i16 | .u16 => some 2
  | .i32 | .u32 | .f32 => some 4
  | .i64 | .u64 | .f64 => some 8
  | .arr | .struct | .bool | .bstr | .ostr | .vstr => none

/-- The types whose decoded value is sign-extended (47_tlv_decode.md R245, R249, R250). INT64 fills VAL. -/
def isSigned : TlvType → Bool
  | .i8 | .i16 | .i32 => true
  | _ => false

/-- The content bytes of the string operand. -/
def strContent (s : State) : List Byte := s.readBytes .str 0 s.strLen.toNat

/-- The `w` content bytes of a fixed-width value: VAL's low `8 w` bits, the most significant byte first
(30_encoding.md R103). -/
def fixedContent (s : State) (w : Nat) : List Byte :=
  (List.range w).map fun j => s.val.extractLsb' (8 * (w - 1 - j)) 8

/-- `[tag] ++ prefix ++ content` of the value the operands of `TLV.ENC.<t>` describe (30_encoding.md R99 to
R105). -/
def encoded (t : TlvType) (s : State) : List Byte :=
  match t with
  | .arr | .struct => tagNumber t :: wsize s.count
  | .bool => [tagNumber t, if s.val = 0 then 0 else 1]
  | .bstr => tagNumber t :: (wsize s.count ++ strContent s)
  | .ostr | .vstr => tagNumber t :: (wsize s.strLen.toNat ++ strContent s)
  | .i8 | .u8 | .enum => tagNumber t :: fixedContent s 1
  | .i16 | .u16 => tagNumber t :: fixedContent s 2
  | .i32 | .u32 | .f32 => tagNumber t :: fixedContent s 4
  | .i64 | .u64 | .f64 => tagNumber t :: fixedContent s 8

/-- The operand checks of `TLV.ENC.<t>` pass (46_tlv_encode.md R214, R217, R218). -/
def encOk (t : TlvType) (s : State) : Prop :=
  match t with
  | .ostr | .vstr => s.strLen.toNat ≤ s.params.strCap
  | .bstr => s.strLen.toNat ≤ s.params.strCap ∧ (s.count + 7) / 8 = s.strLen.toNat
  | _ => True

/-- The number of bytes of the length prefix of `n` (30_encoding.md R101). -/
def prefixLen (n : Nat) : Nat :=
  if n ≤ 0x80 then 1 else if n ≤ 0xFF then 2 else if n ≤ 0xFFFF then 3 else if n ≤ 0xFFFFFF then 4 else 5

/-- The length of what `TLV.ENC.<t>` appends (46_tlv_encode.md R228). -/
def encodedLen (t : TlvType) (s : State) : Nat :=
  match t with
  | .bool | .enum | .i8 | .u8 => 2
  | .i16 | .u16 => 3
  | .i32 | .u32 | .f32 => 5
  | .i64 | .u64 | .f64 => 9
  | .arr | .struct => 1 + prefixLen s.count
  | .ostr | .vstr => 1 + prefixLen s.strLen.toNat + s.strLen.toNat
  | .bstr => 1 + prefixLen s.count + s.strLen.toNat

/-- A decode command finds its tag at the cursor (45_tlv_cursor.md R193). -/
def tagAtCursor (t : TlvType) (s : State) : Prop :=
  s.tlbLen.toNat ≤ s.params.tlbCap ∧ s.tlbCur.toNat < s.tlbLen.toNat
    ∧ s.byteAt .tlb s.tlbCur.toNat = tagNumber t

/-- The number of content bytes of a string type whose prefix is `m` (30_encoding.md R104). -/
def contentBytes (t : TlvType) (m : Nat) : Nat := if t = .bstr then (m + 7) / 8 else m

/-- VAL after encoding and decoding a value of type `t` from `v` (46_tlv_encode.md R229). -/
def roundTripVal (t : TlvType) (v : Word64) : Word64 :=
  match t with
  | .i8 => (v.setWidth 8).signExtend 64
  | .i16 => (v.setWidth 16).signExtend 64
  | .i32 => (v.setWidth 32).signExtend 64
  | .i64 | .u64 | .f64 | .ostr | .vstr => v
  | .u8 | .enum => (v.setWidth 8).setWidth 64
  | .u16 => (v.setWidth 16).setWidth 64
  | .u32 | .f32 | .arr | .struct | .bstr => (v.setWidth 32).setWidth 64
  | .bool => if v = 0 then 0 else 1

/-- The value just decoded at the cursor of `s` was encoded minimally: the prefix is the one `wsize` makes, a
BOOLEAN's content is 00 or 01 (47_tlv_decode.md R262). -/
def minimalAt (t : TlvType) (s decoded : State) : Prop :=
  match t with
  | .arr | .struct | .bstr =>
    s.readBytes .tlb (s.tlbCur.toNat + 1) (wsize decoded.val.toNat).length = wsize decoded.val.toNat
  | .ostr | .vstr =>
    s.readBytes .tlb (s.tlbCur.toNat + 1) (wsize decoded.strLen.toNat).length = wsize decoded.strLen.toNat
  | .bool => s.byteAt .tlb (s.tlbCur.toNat + 1) = 0 ∨ s.byteAt .tlb (s.tlbCur.toNat + 1) = 1
  | _ => True

/-- `RXF[i]`. -/
def rx (s : State) (i : Nat) : Byte := s.byteAt .rxf i

/-- The index of FCS_lo, `n - 3` (44_hdlc_decode.md R171 step 6). -/
def fcsAt (s : State) : Nat := s.rxfLen.toNat - 3

/-- Steps 0 to 6 of HDEC pass (44_hdlc_decode.md R171). -/
def envelopeOk (s : State) : Prop :=
  let n := s.rxfLen.toNat
  9 ≤ n ∧ n ≤ 4097 ∧ rx s 0 = 0x7E ∧ rx s (n - 1) = 0x7E ∧ (rx s 1).toNat / 16 = 0xA
    ∧ (rx s 1).toNat % 16 * 256 + (rx s 2).toNat = n - 2
    ∧ crc16 (s.readBytes .rxf 1 (n - 4)) = rx s (n - 2) ++ rx s (n - 3)

/-- The server address is `nd` bytes long and lies before the FCS (44_hdlc_decode.md R177). -/
def serverEnds (s : State) (nd : Nat) : Prop :=
  (nd = 1 ∨ nd = 2 ∨ nd = 4) ∧ 3 + nd ≤ fcsAt s
    ∧ (∀ j, j + 1 < nd → (rx s (3 + j)).getLsbD 0 = false) ∧ (rx s (2 + nd)).getLsbD 0 = true

/-- The error HDEC reports for an accepted frame of `n` bytes with bit `k` of byte `i` inverted
(44_hdlc_decode.md R186): code, sub-cause, offset. -/
def flipError (n i k : Nat) : Nat × Nat × Nat :=
  if i = 0 then (1, 2, 0)
  else if i = n - 1 then (1, 3, n - 1)
  else if i = 1 then if 4 ≤ k then (1, 4, 1) else (2, 0, 1)
  else if i = 2 then (2, 0, 1)
  else (3, 1, n - 3)

/-- The error codes a command can end with (60_exceptions.md R272). -/
def codes : Instr → List Nat
  | .nop | .srst | .clrerr | .crcInit | .crcUpd _ | .seqReset | .seqTxdone | .seqRxdone | .tlvClr | .tlvRew
  | .xferF2r => []
  | .crcUpds => [9]
  | .xferT2p => [9, 10]
  | .xferP2t => [10]
  | .hencI | .hencRr | .hencRnr | .hencSnrm | .hencDisc | .hencUi | .hencUa | .hencDm | .hencFrmr => [9, 10]
  | .hdec => [1, 2, 3, 4, 9, 10]
  | .tlvEncArr | .tlvEncStruct | .tlvEncBool | .tlvEncBstr | .tlvEncI32 | .tlvEncU32 | .tlvEncOstr
  | .tlvEncVstr | .tlvEncI8 | .tlvEncI16 | .tlvEncU8 | .tlvEncU16 | .tlvEncI64 | .tlvEncU64 | .tlvEncEnum
  | .tlvEncF32 | .tlvEncF64 | .tlvWsize | .tlvPutb _ => [9, 10]
  | .tlvGetb => [6, 9]
  | .tlvRsize => [6, 7, 9]
  | .tlvDecArr | .tlvDecStruct => [5, 6, 7, 9]
  | .tlvDecOstr | .tlvDecVstr | .tlvDecBstr => [5, 6, 7, 9, 10]
  | .tlvDecBool | .tlvDecI32 | .tlvDecU32 | .tlvDecI8 | .tlvDecI16 | .tlvDecU8 | .tlvDecU16 | .tlvDecI64
  | .tlvDecU64 | .tlvDecEnum | .tlvDecF32 | .tlvDecF64 => [5, 6, 9]

/-- The buffers a command reads (20_memory.md R61). -/
def readsBuf : Instr → List BufName
  | .hencI | .hencRr | .hencRnr | .hencSnrm | .hencDisc | .hencUi | .hencUa | .hencDm | .hencFrmr => [.txp]
  | .hdec => [.rxf]
  | .xferT2p => [.tlb]
  | .xferP2t => [.rxp]
  | .xferF2r => [.txf]
  | .crcUpds | .tlvEncOstr | .tlvEncVstr | .tlvEncBstr => [.str]
  | .tlvDecArr | .tlvDecStruct | .tlvDecBool | .tlvDecBstr | .tlvDecI32 | .tlvDecU32 | .tlvDecOstr
  | .tlvDecVstr | .tlvDecI8 | .tlvDecI16 | .tlvDecU8 | .tlvDecU16 | .tlvDecI64 | .tlvDecU64 | .tlvDecEnum
  | .tlvDecF32 | .tlvDecF64 | .tlvRsize | .tlvGetb => [.tlb]
  | _ => []

/-- The buffers a command writes (20_memory.md R61). -/
def writesBuf : Instr → List BufName
  | .hencI | .hencRr | .hencRnr | .hencSnrm | .hencDisc | .hencUi | .hencUa | .hencDm | .hencFrmr => [.txf]
  | .hdec => [.rxp]
  | .xferT2p => [.txp]
  | .xferP2t => [.tlb]
  | .xferF2r => [.rxf]
  | .tlvEncArr | .tlvEncStruct | .tlvEncBool | .tlvEncBstr | .tlvEncI32 | .tlvEncU32 | .tlvEncOstr
  | .tlvEncVstr | .tlvEncI8 | .tlvEncI16 | .tlvEncU8 | .tlvEncU16 | .tlvEncI64 | .tlvEncU64 | .tlvEncEnum
  | .tlvEncF32 | .tlvEncF64 | .tlvWsize | .tlvPutb _ => [.tlb]
  | .tlvDecOstr | .tlvDecVstr | .tlvDecBstr => [.str]
  | _ => []

/-- The nine frame encoder commands and the decoder. -/
def isFrameCommand : Instr → Bool
  | .hencI | .hencRr | .hencRnr | .hencSnrm | .hencDisc | .hencUi | .hencUa | .hencDm | .hencFrmr | .hdec => true
  | _ => false

end Sys2Proof.Claims

open Sys2Proof.Claims

/-! ## The command word -/

/-- Each legal word is the encoding of exactly one command, and each command decodes from its encoding
(30_encoding.md R80, R81). -/
def Obligations.CommandWordsDecodeAndEncodeAgree : Prop :=
  ∀ (i : Instr) (w : Word16), decode w = .ok i ↔ encode i = w

/-- 30_encoding.md R83: a word is a command exactly when no clause (a) to (d) makes it illegal, an illegal
word raises IllegalCommand(0, 0) and changes nothing else but CMD, and 572 words are legal. -/
def Obligations.EveryWordIsACommandOrIllegal : Prop :=
  (∀ w : Word16, (∃ i, decode w = .ok i) ↔ legalWord w = true)
  ∧ (∀ (s : State) (v : Word64) (rest : List HostAction), s.hostQueue = .wr .cmd v :: rest →
      legalWord (v.setWidth 16) = false →
      step s = .next { s with
        hostQueue := rest, cmd := v.setWidth 16, status := 8, errinfo := 0, errsticky := s.errsticky ||| 0x0100 })
  ∧ ((List.range 65536).filter fun n => legalWord (BitVec.ofNat 16 n)).length = 572

/-- Words written out from 30_encoding.md R81 and 95_test_vectors.md decode to their commands. -/
def Obligations.SampleCommandWordsDecode : Prop :=
  decode 0x0320 = .ok .hencSnrm ∧ decode 0x1240 = .ok .tlvEncU16 ∧ decode 0x3111 = .ok (.crcUpd 0x31)
  ∧ decode 0xC044 = .ok (.tlvPutb 0xC0) ∧ decode 0x0021 = .ok .hdec ∧ decode 0x0A41 = .ok .tlvDecVstr
  ∧ decode 0x001A = .ok .seqRxdone ∧ decode 0x0031 = .ok .xferP2t

/-! ## Steps and host actions -/

/-- A step whose host action writes a legal word to CMD stores the word and runs the command
(40_system.md R120); with no host action to come a step holds the state (60_exceptions.md R285). That host
actions stand in a queue of the state is the model's choice (assumption 1). -/
def Obligations.StepRunsTheDecodedCommand : Prop :=
  (∀ (s : State) (v : Word64) (rest : List HostAction) (i : Instr), s.hostQueue = .wr .cmd v :: rest →
    decode (v.setWidth 16) = .ok i → step s = exec i { s with hostQueue := rest, cmd := v.setWidth 16 })
  ∧ ∀ s : State, s.hostQueue = [] → step s = .next s

/-- 10_state.md R45: a host write stores the low bits that fit, a reserved field stays zero; a write to a
read-only register is ignored (R44). Every other register keeps its value (CRC_OUT follows CRC_ACC), and
every buffer whose length register is not lowered. -/
def Obligations.HostWritesRegisters : Prop :=
  ∀ (s : State) (r : Reg) (v : Word64) (rest : List HostAction), s.hostQueue = .wr r v :: rest → r ≠ .cmd →
    ∃ t, step s = .next t ∧ t.hostQueue = rest
      ∧ (regAccess r ≠ .RW → t = { s with hostQueue := rest })
      ∧ (regAccess r = .RW →
          t.readReg r = BitVec.ofNat 64 (v.toNat % 2 ^ (if r = .cfg then 3 else regWidth r)))
      ∧ (∀ r', r' ≠ r → (r = .crcAcc → r' ≠ .crcOut) → t.readReg r' = s.readReg r')
      ∧ t.readReg .crcOut = t.readReg .crcAcc ^^^ 0xFFFF
      ∧ (∀ b, ¬ t.len b < s.len b → t.buf b = s.buf b)
      ∧ t.params = s.params ∧ t.busRead = s.busRead ∧ t.hostReads = s.hostReads

/-- A host write of bytes stores those below the capacity of RXF, TXP, TLB or STR and changes nothing else;
one to TXF or RXP is ignored (10_state.md R44, 30_encoding.md R109). -/
def Obligations.HostWritesBufferBytes : Prop :=
  ∀ (s : State) (b : BufName) (i : Nat) (bs : List Byte) (rest : List HostAction),
    s.hostQueue = .wrb b i bs :: rest →
    ∃ t, step s = .next t ∧ t.withBuffers s = { s with hostQueue := rest }
      ∧ (∀ b', b' ≠ b → t.buf b' = s.buf b')
      ∧ (b = .txf ∨ b = .rxp → t.buf b = s.buf b)
      ∧ (b ≠ .txf → b ≠ .rxp →
          (∀ k v, bs[k]? = some v → i + k < s.cap b → t.byteAt b (i + k) = v)
          ∧ ∀ j, j < i ∨ i + bs.length ≤ j ∨ s.cap b ≤ j → t.byteAt b j = s.byteAt b j)

/-- A host read changes nothing of the block (20_memory.md R72): it only fills the model's own record of the answer
(assumption 7) and, for a buffer, counts the model's own reads (assumption 5). It returns the register, or the
bytes below the length register. A read that reaches an index at or above the capacity faults, and so does a
read of no byte from above the capacity (the model's choice, assumption 6). A host write other than to CMD
done twice leaves what doing it once leaves. -/
def Obligations.HostReadsHaveNoSideEffect : Prop :=
  (∀ (s : State) (r : Reg) (rest : List HostAction), s.hostQueue = .rd r :: rest →
    step s = .next { s with hostQueue := rest, busRead := .reg (s.readReg r) })
  ∧ (∀ (s : State) (b : BufName) (i n : Nat) (rest : List HostAction), s.hostQueue = .rdb b i n :: rest →
      i + n ≤ s.cap b →
      ∃ bs, step s = .next { s with hostQueue := rest, busRead := .bytes bs, hostReads := s.hostReads + 1 }
        ∧ bs.length = n ∧ ∀ k, k < n → i + k < (s.len b).toNat → bs[k]? = some (s.byteAt b (i + k)))
  ∧ (∀ (s : State) (b : BufName) (i n : Nat) (rest : List HostAction), s.hostQueue = .rdb b i n :: rest →
      s.cap b < i + n → step s = .fault (.hostReadBeyondCapacity b))
  ∧ (∀ (s t : State) (r : Reg) (v : Word64), r ≠ .cmd → perform (.wr r v) s = .next t →
      perform (.wr r v) t = .next t)
  ∧ ∀ (s t : State) (b : BufName) (i : Nat) (bs : List Byte), perform (.wrb b i bs) s = .next t →
      perform (.wrb b i bs) t = .next t

/-- How the model gives 10_state.md R43 no fixed value (assumptions 3, 4 and 5): where a host write lowers a
length register, the bytes at and above it lose their value under a fresh epoch and those below keep theirs;
where it does not, no byte changes; and a host read at or above the length register returns a free value. -/
def Obligations.BytesAboveALoweredLengthLoseTheirValue : Prop :=
  (∀ (s : State) (b : BufName) (r : Reg) (v : Word64) (rest : List HostAction),
    (b, r) ∈ [(BufName.rxf, Reg.rxfLen), (.txp, .txpLen), (.tlb, .tlbLen), (.str, .strLen)] →
    s.hostQueue = .wr r v :: rest →
    ∃ t, step s = .next t ∧ t.len b = v.setWidth 16
      ∧ (v.setWidth 16 < s.len b → (t.buf b).epoch = (s.buf b).epoch + 1
          ∧ ∀ j, (t.buf b).cells.get? j = if j < (v.setWidth 16).toNat then (s.buf b).cells.get? j else none)
      ∧ (¬ v.setWidth 16 < s.len b → t.buf b = s.buf b))
  ∧ ∀ (s : State) (b : BufName) (i : Nat) (rest : List HostAction), s.hostQueue = .rdb b i 1 :: rest →
      i < s.cap b → (s.len b).toNat ≤ i →
      step s = .next { s with
        hostQueue := rest, busRead := .bytes [Config.unspecifiedRead b s.hostReads i], hostReads := s.hostReads + 1 }

/-! ## Reset and the system commands -/

/-- 70_reset_and_hazards.md R300, R301: State.reset, the reset input and SRST leave every register at its reset
value (CMD is 0x0001 after SRST) and every byte unspecified. -/
def Obligations.ResetLeavesTheStatedValues : Prop :=
  (∀ r, State.reset.readReg r = resetValue r) ∧ (∀ b, (State.reset.buf b).cells = [])
  ∧ (∀ (s : State) (rest : List HostAction), s.hostQueue = .reset :: rest →
      ∃ t, step s = .next t ∧ (∀ r, t.readReg r = resetValue r) ∧ (∀ b, (t.buf b).cells = [])
        ∧ t.params = s.params ∧ t.hostQueue = rest)
  ∧ ∀ (s : State) (v : Word64) (rest : List HostAction), s.hostQueue = .wr .cmd v :: rest → v.setWidth 16 = 0x0001#16 →
      ∃ t, step s = .next t ∧ t.readReg .cmd = 1 ∧ (∀ r, r ≠ .cmd → t.readReg r = resetValue r)
        ∧ (∀ b, (t.buf b).cells = []) ∧ t.params = s.params ∧ t.hostQueue = rest

/-- SRST (40_system.md R122): every register but CMD takes its reset value, every buffer byte becomes
unspecified, and the command ends with `done`. That the bytes become unspecified under a fresh epoch of each
buffer is the model's choice (assumption 3), and so is that the model's own fields stay (assumption 19). -/
def Obligations.SrstCompletes : Prop :=
  decode 0x0001 = .ok .srst
  ∧ ∀ s : State, ∃ t, exec .srst s = .next t ∧ ended t
      ∧ { State.reset.withBuffers t with
          cmd := s.cmd, params := s.params, hostQueue := s.hostQueue, busRead := s.busRead,
          hostReads := s.hostReads } = t
      ∧ ∀ b, t.buf b = { cells := [], epoch := (s.buf b).epoch + 1 }

/-- 40_system.md R121, R123: NOP and CLRERR. -/
def Obligations.NopAndClrerrComplete : Prop :=
  decode 0x0000 = .ok .nop ∧ decode 0x0002 = .ok .clrerr
  ∧ ∀ s : State, exec .nop s = .next { s with status := 0, errinfo := 0 }
      ∧ exec .clrerr s = .next { s with status := 0, errinfo := 0, errsticky := 0 }

/-- 42_seq.md R141, R142, R143: the counters are reset, or one of them is incremented modulo 8, and nothing
else changes. -/
def Obligations.SequenceCommandsComplete : Prop :=
  decode 0x0018 = .ok .seqReset ∧ decode 0x0019 = .ok .seqTxdone ∧ decode 0x001A = .ok .seqRxdone
  ∧ ∀ s : State, exec .seqReset s = .next { s with sss := 0, rrr := 0, status := 0, errinfo := 0 }
      ∧ exec .seqTxdone s
          = .next { s with sss := BitVec.ofNat 3 ((s.sss.toNat + 1) % 8), status := 0, errinfo := 0 }
      ∧ exec .seqRxdone s
          = .next { s with rrr := BitVec.ofNat 3 ((s.rrr.toNat + 1) % 8), status := 0, errinfo := 0 }

/-! ## The CRC unit -/

/-- 41_crc.md R134, R135, R136: CRC.INIT, CRC.UPD and CRC.UPDS. -/
def Obligations.CrcCommandsComplete : Prop :=
  decode 0x0010 = .ok .crcInit ∧ (∀ b : Byte, decode (b ++ 0x11#8) = .ok (.crcUpd b)) ∧ decode 0x0012 = .ok .crcUpds
  ∧ ∀ s : State, exec .crcInit s = .next { s with crcAcc := 0xFFFF, status := 0, errinfo := 0 }
      ∧ (∀ b, exec (.crcUpd b) s = .next { s with crcAcc := crcStep s.crcAcc b, status := 0, errinfo := 0 })
      ∧ (s.strLen.toNat ≤ s.params.strCap →
          exec .crcUpds s
            = .next { s with crcAcc := (strContent s).foldl crcStep s.crcAcc, status := 0, errinfo := 0 })
      ∧ (s.params.strCap < s.strLen.toNat → raises .crcUpds s 9 2 0)

/-- The table step is eight single-bit steps, least significant bit first (41_crc.md R133 a, which the spec
derives from R130 to R132). -/
def Obligations.CrcStepIsEightBitSteps : Prop :=
  ∀ (a : Word16) (b : Byte),
    crcStep a b = (List.range 8).foldl (fun acc k => crcBit acc (b.getLsbD k)) a

/-- A message followed by its own CRC, low byte first, always leaves the accumulator 0xF0B8 (41_crc.md
R133 d). -/
def Obligations.CrcOfMessageAndItsCrcIsTheResidue : Prop :=
  ∀ bs : List Byte, crcFold 0xFFFF (bs ++ le16 (crc16 bs)) = 0xF0B8

/-- crc16 is linear over messages of one length (41_crc.md R133 b). -/
def Obligations.CrcIsLinear : Prop :=
  ∀ s t : List Byte, s.length = t.length →
    crc16 (List.zipWith (· ^^^ ·) s t) = crc16 s ^^^ crc16 t ^^^ crc16 (List.replicate s.length 0)

/-- Every single-bit change of a message changes its CRC, and every single-bit change of a message followed by
its CRC is seen (41_crc.md R133 c). -/
def Obligations.CrcDetectsEverySingleBit : Prop :=
  ∀ (bs : List Byte) (i k : Nat), k < 8 →
    (i < bs.length → crc16 (flipBit bs i k) ≠ crc16 bs)
    ∧ (i < bs.length + 2 →
        let F := flipBit (bs ++ le16 (crc16 bs)) i k
        F.drop bs.length ≠ le16 (crc16 (F.take bs.length)))

/-! ## The transfer commands -/

/-- 40_system.md R124: XFER.T2P copies TLB[0..TLB_LEN) to TXP whole, or raises. -/
def Obligations.XferT2pCompletes : Prop :=
  decode 0x0030 = .ok .xferT2p
  ∧ ∀ s : State,
    (s.tlbLen.toNat ≤ s.params.tlbCap → s.tlbLen.toNat ≤ s.params.payCap →
      ∃ t, exec .xferT2p s = .next t ∧ storesOnly .txp 0 (s.readBytes .tlb 0 s.tlbLen.toNat) s t
        ∧ t.txpLen = s.tlbLen ∧ ended t
        ∧ { t with txp := s.txp, txpLen := s.txpLen, status := s.status, errinfo := s.errinfo } = s)
    ∧ (s.params.tlbCap < s.tlbLen.toNat → raises .xferT2p s 9 1 0)
    ∧ (s.tlbLen.toNat ≤ s.params.tlbCap → s.params.payCap < s.tlbLen.toNat → raises .xferT2p s 10 1 0)

/-- 40_system.md R125: XFER.P2T copies RXP[0..RXP_LEN) to TLB whole and rewinds the cursor, or raises. -/
def Obligations.XferP2tCompletes : Prop :=
  decode 0x0031 = .ok .xferP2t
  ∧ ∀ s : State,
    (s.rxpLen.toNat ≤ s.params.tlbCap →
      ∃ t, exec .xferP2t s = .next t ∧ storesOnly .tlb 0 (s.readBytes .rxp 0 s.rxpLen.toNat) s t
        ∧ t.tlbLen = s.rxpLen ∧ t.tlbCur = 0 ∧ ended t
        ∧ { t with tlb := s.tlb, tlbLen := s.tlbLen, tlbCur := s.tlbCur, status := s.status,
                   errinfo := s.errinfo } = s)
    ∧ (s.params.tlbCap < s.rxpLen.toNat → raises .xferP2t s 10 2 0)

/-- 40_system.md R126: XFER.F2R copies TXF[0..TXF_LEN) to RXF. -/
def Obligations.XferF2rCompletes : Prop :=
  decode 0x0032 = .ok .xferF2r
  ∧ ∀ s : State, ∃ t, exec .xferF2r s = .next t
      ∧ storesOnly .rxf 0 (s.readBytes .txf 0 s.txfLen.toNat) s t ∧ t.rxfLen = s.txfLen ∧ ended t
      ∧ { t with rxf := s.rxf, rxfLen := s.rxfLen, status := s.status, errinfo := s.errinfo } = s

/-! ## The frame encoder -/

/-- Every HENC command on operands in range builds the frame of the layout of 30_encoding.md R84, byte by
byte, with the length of R86, the check sequences of R96, the LLC header of an I frame (R97, R98), and changes
nothing else (43_hdlc_encode.md R151, R152). -/
def Obligations.HencBuildsTheFrame : Prop :=
  ∀ (c : FrameCmd) (s : State) (na : Nat), alenBytes s.srvAlen = some na → s.txpLen.toNat ≤ s.params.payCap →
    s.clientAddr.toNat ≤ 0x7F → s.srvLog.toNat ≤ maxLog na → s.srvPhy.toNat ≤ maxPhy na →
    let info := (if c = .I then [0xE6, 0xE6, 0x00] else []) ++ s.readBytes .txp 0 s.txpLen.toNat
    let ni := info.length
    let LEN := if ni = 0 then 6 + na else 8 + na + ni
    LEN ≤ 0xFFF →
    ∃ t F, exec c.henc s = .next t ∧ ended t ∧ t.txfLen.toNat = LEN + 2 ∧ F.length = LEN + 2
      ∧ storesOnly .txf 0 F s t
      ∧ { t with txf := s.txf, txfLen := s.txfLen, status := s.status, errinfo := s.errinfo } = s
      ∧ byteOf F 0 = 0x7E ∧ (byteOf F 1).toNat = 0xA0 + LEN / 256 ∧ (byteOf F 2).toNat = LEN % 256
      ∧ slice F 3 (3 + na) = serverBytes s.srvLog s.srvPhy na ∧ byteOf F (3 + na) = clientByte s.clientAddr
      ∧ byteOf F (4 + na) = controlByte s.params.tags c s.sss s.rrr
      ∧ (ni ≠ 0 → ofLe16 (byteOf F (5 + na)) (byteOf F (6 + na)) = crc16 (slice F 1 (5 + na))
          ∧ slice F (7 + na) (7 + na + ni) = info)
      ∧ ofLe16 (byteOf F (LEN - 1)) (byteOf F LEN) = crc16 (slice F 1 (LEN - 1)) ∧ byteOf F (LEN + 1) = 0x7E

/-- 43_hdlc_encode.md R153: the errors of every HENC command in the order tested; TXF and TXF_LEN keep their
values. -/
def Obligations.HencErrorsInOrder : Prop :=
  ∀ (c : FrameCmd) (s : State),
    (s.params.payCap < s.txpLen.toNat → raises c.henc s 9 3 0)
    ∧ (s.txpLen.toNat ≤ s.params.payCap →
      (s.srvAlen = 3 → raises c.henc s 9 5 0)
      ∧ ∀ na, alenBytes s.srvAlen = some na →
        (0x7F < s.clientAddr.toNat → raises c.henc s 9 6 0)
        ∧ (s.clientAddr.toNat ≤ 0x7F →
          (maxLog na < s.srvLog.toNat → raises c.henc s 9 7 0)
          ∧ (s.srvLog.toNat ≤ maxLog na →
            (maxPhy na < s.srvPhy.toNat → raises c.henc s 9 8 0)
            ∧ (s.srvPhy.toNat ≤ maxPhy na →
              let ni := (if c = .I then 3 else 0) + s.txpLen.toNat
              0xFFF < (if ni = 0 then 6 + na else 8 + na + ni) → raises c.henc s 10 3 0))))

/-- 43_hdlc_encode.md R151: HENC writes TXF, TXF_LEN, STATUS, ERRINFO and, on error, ERRSTICKY; two HENC
commands with the same operands end the same way and give the same bytes. -/
def Obligations.HencIsPure : Prop :=
  ∀ (c : FrameCmd) (s t : State), exec c.henc s = .next t →
    { t with txf := s.txf, txfLen := s.txfLen, status := s.status, errinfo := s.errinfo,
             errsticky := s.errsticky } = s
    ∧ (t.status = 0 → t.errsticky = s.errsticky) ∧ (t.status ≠ 0 → t.txf = s.txf ∧ t.txfLen = s.txfLen)
    ∧ ∀ s' t' : State, exec c.henc s' = .next t' →
        s'.params = s.params → s'.srvAlen = s.srvAlen → s'.clientAddr = s.clientAddr → s'.srvLog = s.srvLog →
        s'.srvPhy = s.srvPhy → s'.txpLen = s.txpLen →
        (∀ k, k < s.txpLen.toNat → s'.byteAt .txp k = s.byteAt .txp k) →
        (c = .I → s'.sss = s.sss ∧ s'.rrr = s.rrr) →
        t'.status = t.status ∧ t'.errinfo = t.errinfo
          ∧ (t.status = 0 → t'.txfLen = t.txfLen
              ∧ ∀ k, k < t.txfLen.toNat → t'.byteAt .txf k = t.byteAt .txf k)

/-- 30_encoding.md R95: the control byte of a frame, for every CTRL_TAGS that meets R94, and its inverse; the
classification of what the encoder writes gives the command back. The default tags and the default
classification are those of the tables of R92 and R93. -/
def Obligations.ControlByteFields : Prop :=
  Config.frameCmds.map Config.defaultTags.tag = [0x00, 0x01, 0x05, 0x83, 0x43, 0x03, 0x63, 0x0F, 0x87]
  ∧ (∀ ctrl : Byte, Config.defaultTags.classify ctrl = defaultClass ctrl)
  ∧ ∀ t : Config.CtrlTags, t.wf = true → ∀ (c : FrameCmd) (s r : BitVec 3),
    (c ≠ .I → controlByte t c s r = t.tag c ||| 0x10)
    ∧ t.classify (controlByte t c s r) = some c
    ∧ (let ctrl := controlByte t .I s r
      (ctrl.extractLsb' 5 3).toNat = (s.toNat + 1) % 8 ∧ ctrl.getLsbD 4 = true ∧ ctrl.extractLsb' 1 3 = r
        ∧ ctrl.getLsbD 0 = false ∧ ctrlSend ctrl = s ∧ ctrlRecv ctrl = r)

/-- The server address forms of 30_encoding.md R91: `na` bytes, seven address bits each, the extension bit on
the last byte only (R88, R89), and the decoder's reading gives the addresses back. The byte numbers of
CFG.SRV_ALEN (10_state.md R26), the ranges of the addresses and the client address byte (R90) are written out. -/
def Obligations.ServerAddressForms : Prop :=
  [0, 1, 2, 3].map alenBytes = [some 1, some 2, some 4, none]
  ∧ [1, 2, 4].map maxLog = [0x7F, 0x7F, 0x3FFF] ∧ [1, 2, 4].map maxPhy = [0, 0x7F, 0x3FFF]
  ∧ (∀ c : Byte, c.toNat ≤ 0x7F → (clientByte c).toNat = 2 * c.toNat + 1)
  ∧ ∀ (na : Nat) (L P : Word16), na = 1 ∨ na = 2 ∨ na = 4 → L.toNat ≤ maxLog na → P.toNat ≤ maxPhy na →
    let d := serverBytes L P na
    d.length = na ∧ serverOf d = (L, P)
    ∧ (∀ k, k < na → (byteOf d k).getLsbD 0 = decide (k + 1 = na))
    ∧ d.map (fun b => b.toNat / 2)
        = (if na = 1 then [L.toNat] else if na = 2 then [L.toNat, P.toNat]
           else [L.toNat / 128, L.toNat % 128, P.toNat / 128, P.toNat % 128])

/-- The lengths of 43_hdlc_encode.md R154 (a) and (b), which the spec derives from R152: on operands in range
HENC succeeds exactly up to the largest payload, and TXF_LEN is 8 + na or 10 + na + ni. -/
def Obligations.LargestPayloads : Prop :=
  ∀ (c : FrameCmd) (s : State) (na : Nat), alenBytes s.srvAlen = some na → s.txpLen.toNat ≤ s.params.payCap →
    s.clientAddr.toNat ≤ 0x7F → s.srvLog.toNat ≤ maxLog na → s.srvPhy.toNat ≤ maxPhy na →
    ∃ t, exec c.henc s = .next t
      ∧ (t.status = 0 ↔ s.txpLen.toNat ≤ (if c = .I then 4084 - na else 4087 - na))
      ∧ (t.status = 0 → t.txfLen.toNat
          = if c = .I then 13 + na + s.txpLen.toNat
            else if s.txpLen = 0 then 8 + na else 10 + na + s.txpLen.toNat)

/-- The FCS of a frame with an information field depends on that field only (43_hdlc_encode.md R154 c, which
the spec derives). -/
def Obligations.FcsDependsOnInformationOnly : Prop :=
  ∀ (c c' : FrameCmd) (s s' t t' : State), exec c.henc s = .next t → exec c'.henc s' = .next t' →
    t.status = 0 → t'.status = 0 → s.txInfo c ≠ [] → s.txInfo c = s'.txInfo c' →
    t.byteAt .txf (t.txfLen.toNat - 3) = t'.byteAt .txf (t'.txfLen.toNat - 3)
    ∧ t.byteAt .txf (t.txfLen.toNat - 2) = t'.byteAt .txf (t'.txfLen.toNat - 2)

/-! ## The frame decoder -/

/-- HDEC accepts every frame laid out as 30_encoding.md R84 says whose bit 0x10 is set, whose control byte
names a command and whose LLC header is the selected one, `E6 E7 00` for LLC_RX_SEL = 0 and `E6 E6 00` for 1
(R97), and returns its fields (44_hdlc_decode.md R171, R183), the command by its number of 10_state.md R40;
nothing else changes (R170). -/
def Obligations.HdecAcceptsWellBuiltFrames : Prop :=
  ∀ (s : State) (na : Nat) (L P : Word16) (client ctrl : Byte) (info pay : List Byte) (cmd : FrameCmd),
    na = 1 ∨ na = 2 ∨ na = 4 → L.toNat ≤ maxLog na → P.toNat ≤ maxPhy na → client.toNat ≤ 0x7F →
    frameLen na info.length ≤ 0xFFF →
    s.readBytes .rxf 0 s.rxfLen.toNat
      = frameOf (frameHeader (frameLen na info.length) (serverBytes L P na ++ [clientByte client]) ctrl) info →
    ctrl.getLsbD 4 = true → s.params.tags.classify ctrl = some cmd →
    info = (if cmd = .I ∨ cmd = .UI then llcHeader (s.cfg.getLsbD 0) else []) ++ pay →
    pay.length ≤ s.params.payCap →
    ∃ t, exec .hdec s = .next t ∧ ended t ∧ storesOnly .rxp 0 pay s t ∧ t.rxpLen.toNat = pay.length
      ∧ t.rxCmd.toNat = cmdNumber cmd ∧ t.rxCtrl = ctrl ∧ t.rxClient = client ∧ t.rxLog = L ∧ t.rxPhy = P
      ∧ t.rxAlen.toNat = na
      ∧ (cmd = .I → t.rxSss.toNat = (ctrl.toNat / 32 + 7) % 8 ∧ t.rxRrr.toNat = ctrl.toNat / 2 % 8)
      ∧ (cmd ≠ .I → t.rxSss = 0 ∧ t.rxRrr = 0)
      ∧ { t with
          rxp := s.rxp, rxpLen := s.rxpLen, rxCmd := s.rxCmd, rxCtrl := s.rxCtrl, rxClient := s.rxClient,
          rxLog := s.rxLog, rxPhy := s.rxPhy, rxAlen := s.rxAlen, rxSss := s.rxSss, rxRrr := s.rxRrr,
          status := s.status, errinfo := s.errinfo } = s

/-- The errors of HDEC's steps 1 to 6, in their order (44_hdlc_decode.md R184, orders 1 to 6). -/
def Obligations.HdecEnvelopeErrorsInOrder : Prop :=
  ∀ s : State, s.rxfLen.toNat ≤ 4097 →
    let n := s.rxfLen.toNat
    (n < 9 → hdecFails s 1 1 0)
    ∧ (9 ≤ n →
      (rx s 0 ≠ 0x7E → hdecFails s 1 2 0)
      ∧ (rx s 0 = 0x7E →
        (rx s (n - 1) ≠ 0x7E → hdecFails s 1 3 (n - 1))
        ∧ (rx s (n - 1) = 0x7E →
          ((rx s 1).toNat / 16 ≠ 0xA → hdecFails s 1 4 1)
          ∧ ((rx s 1).toNat / 16 = 0xA →
            ((rx s 1).toNat % 16 * 256 + (rx s 2).toNat ≠ n - 2 → hdecFails s 2 0 1)
            ∧ ((rx s 1).toNat % 16 * 256 + (rx s 2).toNat = n - 2 →
              crc16 (s.readBytes .rxf 1 (n - 4)) ≠ rx s (n - 2) ++ rx s (n - 3) → hdecFails s 3 1 (n - 3))))))

/-- The errors of HDEC's steps 7 to 9 (44_hdlc_decode.md R184, orders 7 to 9): no end of the server address
within four bytes and before the FCS, a server address of three bytes, a client address byte missing or
without its end mark, no room for a control byte. -/
def Obligations.HdecAddressErrorsInOrder : Prop :=
  ∀ s : State, envelopeOk s →
    ((∀ j, 3 ≤ j → j < min 7 (fcsAt s) → (rx s j).getLsbD 0 = false) → hdecFails s 1 5 (min 7 (fcsAt s)))
    ∧ ((rx s 3).getLsbD 0 = false → (rx s 4).getLsbD 0 = false → (rx s 5).getLsbD 0 = true →
        hdecFails s 1 5 5)
    ∧ ∀ nd, serverEnds s nd →
        (fcsAt s ≤ 3 + nd ∨ (rx s (3 + nd)).getLsbD 0 = false → hdecFails s 1 6 (3 + nd))
        ∧ (3 + nd < fcsAt s → (rx s (3 + nd)).getLsbD 0 = true → fcsAt s ≤ 4 + nd → hdecFails s 1 7 (4 + nd))

/-- The errors of HDEC's steps 10 to 14, in their order (44_hdlc_decode.md R184, orders 10 to 15), for the
control byte at `c = 4 + nd` and the `R` bytes between it and the FCS. -/
def Obligations.HdecLateErrorsInOrder : Prop :=
  ∀ (s : State) (nd : Nat), envelopeOk s → serverEnds s nd → (rx s (3 + nd)).getLsbD 0 = true →
    4 + nd < fcsAt s →
    let c := 4 + nd
    let R := fcsAt s - (c + 1)
    let info := s.readBytes .rxf (c + 3) (R - 2)
    (R = 1 ∨ R = 2 → hdecFails s 1 8 (c + 1))
    ∧ (3 ≤ R → crc16 (s.readBytes .rxf 1 c) ≠ rx s (c + 2) ++ rx s (c + 1) → hdecFails s 3 2 (c + 1))
    ∧ (R = 0 ∨ 3 ≤ R ∧ crc16 (s.readBytes .rxf 1 c) = rx s (c + 2) ++ rx s (c + 1) →
        ((rx s c).getLsbD 4 = false → hdecFails s 4 0 c)
        ∧ ((rx s c).getLsbD 4 = true →
          (s.params.tags.classify (rx s c) = none → hdecFails s 1 9 c)
          ∧ ∀ cmd, s.params.tags.classify (rx s c) = some cmd →
            ((cmd = .I ∨ cmd = .UI) → info.take 3 ≠ llcHeader (s.cfg.getLsbD 0) →
              hdecFails s 1 10 (if R = 0 then c + 1 else c + 3))
            ∧ (cmd = .I ∨ cmd = .UI → info.take 3 = llcHeader (s.cfg.getLsbD 0) →
                s.params.payCap + 3 < info.length → hdecFails s 10 6 0)
            ∧ (cmd ≠ .I → cmd ≠ .UI → s.params.payCap < info.length → hdecFails s 10 6 0)))

/-- 44_hdlc_decode.md R172: an impossible RXF_LEN is the only failure that leaves the results in place; every
other failure sets them to their reset values and RXP_LEN to 0 (R184). HDEC never changes anything else but
the status registers (R170). -/
def Obligations.HdecFailureClearsTheResults : Prop :=
  ∀ s : State,
    (4097 < s.rxfLen.toNat → raises .hdec s 9 4 0)
    ∧ ∀ t, exec .hdec s = .next t →
      (s.rxfLen.toNat ≤ 4097 → t.status ≠ 0 →
        t.rxCmd = 15 ∧ t.rxCtrl = 0 ∧ t.rxClient = 0 ∧ t.rxLog = 0 ∧ t.rxPhy = 0 ∧ t.rxAlen = 0
          ∧ t.rxSss = 0 ∧ t.rxRrr = 0 ∧ t.rxpLen = 0)
      ∧ { t with
          rxp := s.rxp, rxpLen := s.rxpLen, rxCmd := s.rxCmd, rxCtrl := s.rxCtrl, rxClient := s.rxClient,
          rxLog := s.rxLog, rxPhy := s.rxPhy, rxAlen := s.rxAlen, rxSss := s.rxSss, rxRrr := s.rxRrr,
          status := s.status, errinfo := s.errinfo, errsticky := s.errsticky } = s

/-- The round trip of 44_hdlc_decode.md R185, which the spec derives: HENC, XFER.F2R, HDEC give back the
command, the addresses, the sequence numbers and the payload, for every CTRL_TAGS that meets R94. -/
def Obligations.LoopbackRoundTrip : Prop :=
  ∀ (c : FrameCmd) (s t : State), s.params.wf = true → exec c.henc s = .next t → t.status = 0 →
    (c = .I → s.cfg.getLsbD 0 = true) →
    (c = .UI → (s.readBytes .txp 0 s.txpLen.toNat).take 3 = llcHeader (s.cfg.getLsbD 0)) →
    ∃ u v, exec .xferF2r t = .next u ∧ exec .hdec u = .next v ∧ v.status = 0
      ∧ v.rxCmd.toNat = cmdNumber c ∧ v.rxClient = s.clientAddr ∧ v.rxLog = s.srvLog ∧ v.rxPhy = s.srvPhy
      ∧ alenBytes s.srvAlen = some v.rxAlen.toNat
      ∧ (c = .I → v.rxSss = s.sss ∧ v.rxRrr = s.rrr) ∧ (c ≠ .I → v.rxSss = 0 ∧ v.rxRrr = 0)
      ∧ v.readBytes .rxp 0 v.rxpLen.toNat
          = (s.readBytes .txp 0 s.txpLen.toNat).drop (if c = .UI then 3 else 0)

/-- With CFG.LLC_RX_SEL = 0, its reset value, the block's own I frame is refused with InvalidFraming(10, c + 3)
(44_hdlc_decode.md R185, 90_conflicts.md C1). -/
def Obligations.LoopbackOfIFrameNeedsTheLlcSelection : Prop :=
  ∀ (s t : State) (na : Nat), s.params.wf = true → exec .hencI s = .next t → t.status = 0 →
    s.cfg.getLsbD 0 = false → alenBytes s.srvAlen = some na →
    ∃ u, exec .xferF2r t = .next u ∧ hdecFails u 1 10 (4 + na + 3)

/-- The single-bit property of 44_hdlc_decode.md R186, which the spec derives: one inverted bit of an accepted
frame is always reported, and how depends only on where it is. -/
def Obligations.HdecReportsEverySingleBitFlip : Prop :=
  ∀ (s t s' : State) (i k : Nat), exec .hdec s = .next t → t.status = 0 → i < s.rxfLen.toNat → k < 8 →
    s'.rxfLen = s.rxfLen →
    s'.readBytes .rxf 0 s.rxfLen.toNat = flipBit (s.readBytes .rxf 0 s.rxfLen.toNat) i k →
    let e := flipError s.rxfLen.toNat i k
    hdecFails s' e.1 e.2.1 e.2.2

/-! ## The TLV cursor -/

/-- 45_tlv_cursor.md R196 (TLV.REW), and TLV.CLR of R195: both length and cursor are 0 and no other register
changes; where TLB_LEN was not 0 already, the bytes of TLB are no longer below it and lose their value
(10_state.md R43; the model's reading, assumption 3). -/
def Obligations.TlvClrAndRewComplete : Prop :=
  decode 0x0046 = .ok .tlvClr ∧ decode 0x0047 = .ok .tlvRew
  ∧ ∀ s : State, exec .tlvRew s = .next { s with tlbCur := 0, status := 0, errinfo := 0 }
      ∧ ∃ x, exec .tlvClr s = .next { s with tlb := x, tlbLen := 0, tlbCur := 0, status := 0, errinfo := 0 }
          ∧ x = if s.tlbLen = 0 then s.tlb else { cells := [], epoch := s.tlb.epoch + 1 }

/-- 45_tlv_cursor.md R197: TLV.PUTB appends its immediate byte, whatever the byte is. -/
def Obligations.TlvPutbAppends : Prop :=
  (∀ b : Byte, decode (b ++ 0x44#8) = .ok (.tlvPutb b))
  ∧ ∀ (b : Byte) (s : State), s.params.wf = true → appendsOrRaises (.tlvPutb b) s [b]

/-- 45_tlv_cursor.md R199: TLV.WSIZE appends the length prefix of VAL[31:0]; the boundary values of the
rule. -/
def Obligations.TlvWsizeAppends : Prop :=
  decode 0x0042 = .ok .tlvWsize
  ∧ (∀ s : State, s.params.wf = true → appendsOrRaises .tlvWsize s (wsize (s.val.toNat % 2 ^ 32)))
  ∧ [0, 0x80, 0x81, 0xFF, 0x100, 0xFFFF, 0x10000, 0xFFFFFF, 0x1000000, 0xFFFFFFFF].map wsize
      = [[0x00], [0x80], [0x81, 0x81], [0x81, 0xFF], [0x82, 0x01, 0x00], [0x82, 0xFF, 0xFF],
         [0x83, 0x01, 0x00, 0x00], [0x83, 0xFF, 0xFF, 0xFF], [0x84, 0x01, 0x00, 0x00, 0x00],
         [0x84, 0xFF, 0xFF, 0xFF, 0xFF]]

/-- 45_tlv_cursor.md R198: TLV.GETB. -/
def Obligations.TlvGetbCompletes : Prop :=
  decode 0x0045 = .ok .tlvGetb
  ∧ ∀ s : State,
    (s.tlbLen.toNat ≤ s.params.tlbCap → s.tlbCur < s.tlbLen →
      exec .tlvGetb s = .next { s with
        val := (s.byteAt .tlb s.tlbCur.toNat).setWidth 64, tlbCur := s.tlbCur + 1, status := 0, errinfo := 0 })
    ∧ (s.params.tlbCap < s.tlbLen.toNat → raises .tlvGetb s 9 1 0)
    ∧ (s.tlbLen.toNat ≤ s.params.tlbCap → s.tlbLen ≤ s.tlbCur → raises .tlvGetb s 6 1 s.tlbCur.toNat)

/-- 45_tlv_cursor.md R200: TLV.RSIZE on every first byte, and its errors in order; a prefix of `k` length bytes
gives their big-endian number. -/
def Obligations.TlvRsizeCompletes : Prop :=
  decode 0x0043 = .ok .tlvRsize
  ∧ ∀ s : State,
    let p := s.tlbCur.toNat
    let b := s.byteAt .tlb p
    (s.params.tlbCap < s.tlbLen.toNat → raises .tlvRsize s 9 1 0)
    ∧ (s.tlbLen.toNat ≤ s.params.tlbCap →
      (s.tlbLen.toNat ≤ p → raises .tlvRsize s 6 2 p)
      ∧ (p < s.tlbLen.toNat →
        (b.toNat ≤ 0x80 →
          exec .tlvRsize s = .next { s with
            val := b.setWidth 64, tlbCur := s.tlbCur + 1, status := 0, errinfo := 0 })
        ∧ (0x85 ≤ b.toNat → raises .tlvRsize s 7 0 p)
        ∧ ∀ k, 1 ≤ k → k ≤ 4 → b.toNat = 0x80 + k →
          (s.tlbLen.toNat < p + 1 + k → raises .tlvRsize s 6 2 p)
          ∧ (p + 1 + k ≤ s.tlbLen.toNat →
            ∃ t, exec .tlvRsize s = .next t ∧ ended t ∧ t.tlbCur.toNat = p + 1 + k
              ∧ t.val.toNat < 2 ^ (8 * k)
              ∧ (∀ j, j < k → t.val.extractLsb' (8 * (k - 1 - j)) 8 = s.byteAt .tlb (p + 1 + j))
              ∧ { t with val := s.val, tlbCur := s.tlbCur, status := s.status, errinfo := s.errinfo } = s)))

/-- 30_encoding.md R101: the forms of the length prefix. -/
def Obligations.LengthPrefixForms : Prop :=
  ∀ n : Nat, n < 2 ^ 32 →
    (n ≤ 0x80 → (wsize n).map BitVec.toNat = [n])
    ∧ (0x81 ≤ n → n ≤ 0xFF → (wsize n).map BitVec.toNat = [0x81, n])
    ∧ (0x100 ≤ n → n ≤ 0xFFFF → (wsize n).map BitVec.toNat = [0x82, n / 256, n % 256])
    ∧ (0x10000 ≤ n → n ≤ 0xFFFFFF →
        (wsize n).map BitVec.toNat = [0x83, n / 65536, n / 256 % 256, n % 256])
    ∧ (0x1000000 ≤ n →
        (wsize n).map BitVec.toNat = [0x84, n / 16777216, n / 65536 % 256, n / 256 % 256, n % 256])

/-- The round trip of the prefix for every number (45_tlv_cursor.md R201, which the spec derives). -/
def Obligations.LengthPrefixRoundTrip : Prop :=
  ∀ s : State, s.params.wf = true → s.tlbCur = s.tlbLen →
    s.tlbLen.toNat + (wsize (s.val.toNat % 2 ^ 32)).length ≤ s.params.tlbCap →
    ∃ t u, exec .tlvWsize s = .next t ∧ exec .tlvRsize t = .next u ∧ u.status = 0
      ∧ u.val.toNat = s.val.toNat % 2 ^ 32 ∧ u.tlbCur = u.tlbLen

/-! ## The TLV encode commands -/

/-- Each of the seventeen TLV.ENC commands, on operands that pass its checks, appends one whole value
`[tag] ++ prefix ++ content` (30_encoding.md R99 to R105; 46_tlv_encode.md R210 to R227), or raises because
TLB_LEN is out of range or the value does not fit. The tags are the seventeen numbers of R100, written out,
and the command words of TLV.ENC and TLV.DEC carry the same numbers. -/
def Obligations.EncAppendsOneWholeValue : Prop :=
  (∀ t : TlvType, encode t.enc = tagNumber t ++ 0x40#8 ∧ encode t.dec = tagNumber t ++ 0x41#8)
  ∧ ∀ (t : TlvType) (s : State), s.params.wf = true → encOk t s → appendsOrRaises t.enc s (encoded t s)

/-- The operand errors of the string encoders, before those of `append` (46_tlv_encode.md R214, R217, R218). -/
def Obligations.EncOperandErrors : Prop :=
  ∀ s : State,
    (∀ t : TlvType, t = .ostr ∨ t = .vstr ∨ t = .bstr → s.params.strCap < s.strLen.toNat → raises t.enc s 9 2 0)
    ∧ (s.strLen.toNat ≤ s.params.strCap → (s.val.toNat % 2 ^ 32 + 7) / 8 ≠ s.strLen.toNat →
        raises .tlvEncBstr s 9 9 0)

/-- The length of what each TLV.ENC appends, and that it succeeds exactly when its operand checks pass and the
value fits (46_tlv_encode.md R228, which the spec derives). -/
def Obligations.EncodedLengths : Prop :=
  ∀ (t : TlvType) (s : State), s.params.wf = true →
    ∃ u, exec t.enc s = .next u
      ∧ (u.status = 0 ↔ encOk t s ∧ s.tlbLen.toNat + encodedLen t s ≤ s.params.tlbCap)
      ∧ (u.status = 0 → u.tlbLen.toNat = s.tlbLen.toNat + encodedLen t s)
      ∧ (u.status ≠ 0 → u.tlbLen = s.tlbLen ∧ u.tlb = s.tlb)

/-! ## The TLV decode commands -/

/-- The twelve fixed-width TLV.DEC commands: VAL takes the content bytes, most significant first, extended by
zeros or by the sign (47_tlv_decode.md R243, R245, R246, R249 to R257); BOOLEAN gives 0 or 1. Nothing else
changes but the cursor, STATUS and ERRINFO. -/
def Obligations.DecFixedWidthValues : Prop :=
  ∀ s : State,
    (∀ (t : TlvType) (w : Nat), fixedWidth t = some w → tagAtCursor t s →
      s.tlbCur.toNat + 1 + w ≤ s.tlbLen.toNat →
      ∃ v, exec t.dec s = .next { s with
          val := v, tlbCur := BitVec.ofNat 16 (s.tlbCur.toNat + 1 + w), status := 0, errinfo := 0 }
        ∧ (∀ j, j < w → v.extractLsb' (8 * (w - 1 - j)) 8 = s.byteAt .tlb (s.tlbCur.toNat + 1 + j))
        ∧ ∀ i, 8 * w ≤ i → i < 64 →
            v.getLsbD i = (isSigned t && (s.byteAt .tlb (s.tlbCur.toNat + 1)).getLsbD 7))
    ∧ (tagAtCursor .bool s → s.tlbCur.toNat + 2 ≤ s.tlbLen.toNat →
        exec .tlvDecBool s = .next { s with
          val := if s.byteAt .tlb (s.tlbCur.toNat + 1) = 0 then 0 else 1
          tlbCur := s.tlbCur + 2, status := 0, errinfo := 0 })

/-- The count headers and the string types, on a value that is all there: the prefix read at the cursor gives
`(m, k)` (45_tlv_cursor.md R194); ARRAY and STRUCTURE return it (47_tlv_decode.md R241, R242), the strings
copy their content to STR (R244, R247, R248) and only BIT_STRING writes VAL. -/
def Obligations.DecCountsAndStrings : Prop :=
  ∀ (s : State) (m k : Nat), s.rsizeAt (s.tlbCur.toNat + 1) = .ok (m, k) →
    (∀ t : TlvType, t = .arr ∨ t = .struct → tagAtCursor t s →
      exec t.dec s = .next { s with
        val := BitVec.ofNat 64 m, tlbCur := BitVec.ofNat 16 (s.tlbCur.toNat + 1 + k), status := 0, errinfo := 0 })
    ∧ ∀ t : TlvType, t = .ostr ∨ t = .vstr ∨ t = .bstr → tagAtCursor t s →
      let n := contentBytes t m
      s.tlbCur.toNat + 1 + k + n ≤ s.tlbLen.toNat → n ≤ s.params.strCap →
      ∃ u, exec t.dec s = .next u ∧ ended u
        ∧ storesOnly .str 0 (s.readBytes .tlb (s.tlbCur.toNat + 1 + k) n) s u
        ∧ u.strLen.toNat = n ∧ u.tlbCur.toNat = s.tlbCur.toNat + 1 + k + n
        ∧ u.val = (if t = .bstr then BitVec.ofNat 64 m else s.val)
        ∧ { u with str := s.str, strLen := s.strLen, tlbCur := s.tlbCur, val := s.val, status := s.status,
                   errinfo := s.errinfo } = s

/-- 47_tlv_decode.md R258: the errors of a TLV.DEC command in the order tested, each leaving everything but the
error report unchanged. -/
def Obligations.DecErrorsInOrder : Prop :=
  ∀ (s : State) (t : TlvType),
    let p := s.tlbCur.toNat
    let b := s.byteAt .tlb (p + 1)
    (s.params.tlbCap < s.tlbLen.toNat → raises t.dec s 9 1 0)
    ∧ (s.tlbLen.toNat ≤ s.params.tlbCap → s.tlbLen.toNat ≤ p → raises t.dec s 6 1 p)
    ∧ (s.tlbLen.toNat ≤ s.params.tlbCap → p < s.tlbLen.toNat → s.byteAt .tlb p ≠ tagNumber t → raises t.dec s 5 0 p)
    ∧ (tagAtCursor t s →
      (fixedWidth t = none → t ≠ .bool →
        (s.tlbLen.toNat ≤ p + 1 → raises t.dec s 6 2 p)
        ∧ (p + 1 < s.tlbLen.toNat → 0x85 ≤ b.toNat → raises t.dec s 7 0 (p + 1))
        ∧ (p + 1 < s.tlbLen.toNat → 0x81 ≤ b.toNat → b.toNat ≤ 0x84 →
            s.tlbLen.toNat < p + 2 + (b.toNat - 0x80) → raises t.dec s 6 2 p))
      ∧ (∀ w, fixedWidth t = some w ∨ t = .bool ∧ w = 1 → s.tlbLen.toNat < p + 1 + w → raises t.dec s 6 3 p)
      ∧ ∀ m k, t = .ostr ∨ t = .vstr ∨ t = .bstr → s.rsizeAt (p + 1) = .ok (m, k) →
          (s.tlbLen.toNat < p + 1 + k + contentBytes t m → raises t.dec s 6 3 p)
          ∧ (p + 1 + k + contentBytes t m ≤ s.tlbLen.toNat → s.params.strCap < contentBytes t m →
              raises t.dec s 10 5 p))

/-- The round trip of 46_tlv_encode.md R229, which the spec derives: what TLV.ENC appended at the cursor,
TLV.DEC reads back, for all seventeen types and all operand values. -/
def Obligations.EncodeThenDecode : Prop :=
  ∀ (t : TlvType) (s u : State), s.params.wf = true → s.tlbCur = s.tlbLen → exec t.enc s = .next u →
    u.status = 0 →
    ∃ v, exec t.dec u = .next v ∧ v.status = 0 ∧ v.tlbCur = v.tlbLen ∧ v.tlbLen = u.tlbLen
      ∧ v.val = roundTripVal t s.val ∧ v.strLen = s.strLen
      ∧ ∀ k, k < s.strLen.toNat → v.byteAt .str k = s.byteAt .str k

/-- The converse round trip of 47_tlv_decode.md R262, which the spec derives: a value that was decoded and
whose encoding was minimal is encoded to the same bytes. -/
def Obligations.DecodeThenEncode : Prop :=
  ∀ (t : TlvType) (s u v : State), s.params.wf = true → exec t.dec s = .next u → u.status = 0 →
    minimalAt t s u → exec t.enc u = .next v → v.status = 0 →
    let m := u.tlbCur.toNat - s.tlbCur.toNat
    v.tlbLen.toNat = s.tlbLen.toNat + m
    ∧ v.readBytes .tlb s.tlbLen.toNat m = s.readBytes .tlb s.tlbCur.toNat m

/-! ## The whole machine -/

/-- Every step, whatever the host does, keeps the invariant: legal parameters, STATUS in 0..10, reserved fields
zero, TXF_LEN and RXP_LEN within the capacities, a legal decoder record, canonical buffers (10_state.md R23 to
R26, R40, R50; 00_scope.md R6). -/
def Obligations.StepKeepsTheInvariant : Prop :=
  ∀ s t : State, s.Inv → step s = .next t → t.Inv

/-- The state after reset meets the invariant. -/
def Obligations.ResetMeetsTheInvariant : Prop := State.reset.Inv

/-- Every command keeps TLB_CUR ≤ TLB_LEN ≤ TLB_CAP (10_state.md R41, R50). -/
def Obligations.CommandsKeepTheCursorInOrder : Prop :=
  ∀ (i : Instr) (s t : State), s.params.wf = true → s.cursorOk → exec i s = .next t → t.cursorOk

/-- Every step keeps this: TXF holds no frame, or a frame HDEC accepts under one of its LLC selections, or a UI
frame refused only for its missing LLC header (10_state.md R50, which the spec derives). -/
def Obligations.StepKeepsAnAcceptableFrameInTxf : Prop :=
  ∀ s t : State, s.params.wf = true → s.txfOk → step s = .next t → t.txfOk

/-- 60_exceptions.md R276: a command that ends with an error made none of the writes of its rule; it wrote
STATUS, ERRINFO (SUB, OFF modulo 65536, zero above) and one bit of ERRSTICKY, and a failed HDEC that examined a
frame cleared its results. CMD holds the word, also for an illegal one. -/
def Obligations.FailingCommandsArePrecise : Prop :=
  (∀ (i : Instr) (s t : State), exec i s = .next t → t.status ≠ 0 →
    ∃ code sub off : Nat, 1 ≤ code ∧ code ≤ 10 ∧ sub < 256
      ∧ { (if i = .hdec ∧ s.rxfLen.toNat ≤ 4097 then s.clearRx else s) with
          status := BitVec.ofNat 8 code
          errinfo := BitVec.ofNat 32 (sub * 65536 + off % 65536)
          errsticky := s.errsticky ||| 1#16 <<< code } = t)
  ∧ (∀ s : State, ∃ x,
      s.clearRx = { s with
        rxp := x, rxpLen := 0, rxCmd := 15, rxCtrl := 0, rxClient := 0, rxLog := 0, rxPhy := 0, rxAlen := 0,
        rxSss := 0, rxRrr := 0 })
  ∧ ∀ (s t : State) (v : Word64) (rest : List HostAction), s.hostQueue = .wr .cmd v :: rest →
      step s = .next t → t.cmd = v.setWidth 16

/-- 10_state.md R25: bit `k` of ERRSTICKY is set when a command ends with code `k` and stays set until CLRERR,
SRST or hardware reset clears the register; nothing else the host does changes it; bits 0 and 11 to 15 stay
zero. -/
def Obligations.ErrstickyRecordsEveryError : Prop :=
  ∀ s t : State, step s = .next t →
    (∀ v rest, s.hostQueue = .wr .cmd v :: rest →
      (v.setWidth 16 ≠ 0x0001#16 → v.setWidth 16 ≠ 0x0002#16 →
        t.errsticky = s.errsticky ||| (if t.status = 0 then 0 else 1#16 <<< t.status.toNat))
      ∧ (v.setWidth 16 = 0x0001#16 ∨ v.setWidth 16 = 0x0002#16 → t.errsticky = 0))
    ∧ (∀ rest, s.hostQueue = .reset :: rest → t.errsticky = 0)
    ∧ ((∀ v, s.hostQueue.head? ≠ some (.wr .cmd v)) → s.hostQueue.head? ≠ some .reset → t.errsticky = s.errsticky)
    ∧ (s.errsticky &&& 0xF801 = 0 → t.errsticky &&& 0xF801 = 0)

/-- Every command ends, in every state, and only with a code the table of 60_exceptions.md R272 marks for it
(which the spec derives); with code 0 ERRINFO is 0. -/
def Obligations.StatusCodesPerCommand : Prop :=
  ∀ (i : Instr) (s : State), ∃ t, exec i s = .next t
    ∧ (t.status = 0 ∧ t.errinfo = 0 ∨ t.status.toNat ∈ codes i)

/-- The table of 20_memory.md R61, which the spec derives: a command changes no byte of a buffer it does not
write (SRST and TLV.CLR, which write no byte, leave the length 0 and so no byte specified), and what it does
does not depend on a buffer it does not read. -/
def Obligations.CommandsReachOnlyTheirBuffers : Prop :=
  ∀ (i : Instr) (s : State) (b : BufName),
    (b ∉ writesBuf i → ∀ t, exec i s = .next t →
      t.buf b = s.buf b ∨ t.len b = 0 ∧ (i = .srst ∨ i = .tlvClr ∧ b = .tlb))
    ∧ (b ∉ readsBuf i → ∀ x y : Buf,
        mapNext (·.setBuf b y) (exec i (s.setBuf b x)) = mapNext (·.setBuf b y) (exec i s))

/-- No command reads a byte at or above a length register (10_state.md R43): two states that differ only in such
bytes of a buffer give the same outcome, the same registers and the same bytes below every length register. -/
def Obligations.NoCommandReadsAnUnspecifiedByte : Prop :=
  ∀ (i : Instr) (s t : State) (b : BufName) (x : Buf), s.params.wf = true →
    (∀ k, k < (s.len b).toNat → x.byteAt b k = s.byteAt b k) → exec i s = .next t →
    ∃ t', exec i (s.setBuf b x) = .next t' ∧ t'.withBuffers t = t
      ∧ ∀ b' k, k < (t.len b').toNat → t'.byteAt b' k = t.byteAt b' k

/-- 41_crc.md R137: HENC and HDEC leave CRC_ACC unchanged, and what they do does not depend on it. -/
def Obligations.CrcUnitAndFramesDoNotInterfere : Prop :=
  ∀ (i : Instr) (s : State) (a : Word16), isFrameCommand i = true →
    exec i { s with crcAcc := a } = mapNext (fun t => { t with crcAcc := a }) (exec i s)
    ∧ ∀ t, exec i s = .next t → t.crcAcc = s.crcAcc
end

