-- ==== Sys2Proof/Laws/Memory.lean ====
section
/-!
SUPPORT. What reading gives after writing, and that every memory operation keeps the canonical form.
-/

namespace Sys2Proof.Machine

theorem Memory.get?_append (m m' : Memory) (i : Nat) :
    Memory.get? (m ++ m') i = (Memory.get? m i).or (Memory.get? m' i) := by
  induction m with
  | nil => simp [Memory.get?]
  | cons c m ih =>
    obtain ⟨a, v⟩ := c
    by_cases h : a = i <;> simp [Memory.get?, h, ih]

/-- Filtering by index keeps what is read at an index that passes, and hides the others. -/
theorem Memory.get?_filter (m : Memory) (p : Nat → Bool) (i : Nat) :
    Memory.get? (m.filter fun c => p c.1) i = if p i then Memory.get? m i else none := by
  induction m with
  | nil => simp [Memory.get?]
  | cons c m ih =>
    obtain ⟨a, v⟩ := c
    by_cases hp : p a = true <;> by_cases h : a = i <;> simp_all [Memory.get?]

theorem Memory.get?_listing (i : Nat) (bs : List Byte) (j : Nat) :
    Memory.get? (Memory.listing i bs) j = if i ≤ j then bs[j - i]? else none := by
  induction bs generalizing i with
  | nil => simp [Memory.listing, Memory.get?]
  | cons b bs ih =>
    simp only [Memory.listing, Memory.get?, ih]
    by_cases h : i = j
    · simp [h]
    · by_cases h' : i ≤ j
      · have : j - i = (j - (i + 1)) + 1 := by omega
        simp [h, h', this, show i + 1 ≤ j by omega]
      · simp [h, h', show ¬ i + 1 ≤ j by omega]

/-- Reading after a write: the byte written inside the range, what was there outside it. -/
theorem Memory.get?_write (m : Memory) (i : Nat) (bs : List Byte) (j : Nat) :
    (m.write i bs).get? j
      = if i ≤ j ∧ j < i + bs.length then bs[j - i]? else m.get? j := by
  have f1 := Memory.get?_filter m (fun a => decide (a < i)) j
  have f2 := Memory.get?_filter m (fun a => decide (i + bs.length ≤ a)) j
  simp only [Memory.write, Memory.get?_append, Memory.get?_listing]
  rw [f1, f2]
  by_cases h1 : j < i
  · simp [h1, show ¬ i ≤ j by omega, show ¬ i + bs.length ≤ j by omega]
  · by_cases h2 : j < i + bs.length
    · have : j - i < bs.length := by omega
      simp [h1, h2, show i ≤ j by omega, List.getElem?_eq_getElem this]
    · have : bs[j - i]? = none := List.getElem?_eq_none (by omega)
      simp [h1, h2, show i ≤ j by omega, show i + bs.length ≤ j by omega, this]

/-- Reading the cells below an index. -/
theorem Memory.get?_below (m : Memory) (n j : Nat) :
    (m.below n).get? j = if j < n then m.get? j else none := by
  have := Memory.get?_filter m (fun a => decide (a < n)) j
  simpa [Memory.below] using this

theorem Memory.wf_nil : Memory.wf [] := List.Pairwise.nil

theorem Memory.mem_listing {i : Nat} {bs : List Byte} {c : Host.Cell} (h : c ∈ Memory.listing i bs) :
    i ≤ c.1 ∧ c.1 < i + bs.length := by
  induction bs generalizing i with
  | nil => simp [Memory.listing] at h
  | cons b bs ih =>
    rcases List.mem_cons.mp h with rfl | h
    · simp
    · have := ih h
      simp only [List.length_cons]
      omega

theorem Memory.wf_listing (i : Nat) (bs : List Byte) : Memory.wf (Memory.listing i bs) := by
  induction bs generalizing i with
  | nil => exact List.Pairwise.nil
  | cons b bs ih =>
    refine List.Pairwise.cons (fun c hc => ?_) (ih (i + 1))
    have := Memory.mem_listing hc
    show i < c.1
    omega

/-- A write keeps the canonical form. -/
theorem Memory.wf_write {m : Memory} (h : m.wf) (i : Nat) (bs : List Byte) : (m.write i bs).wf := by
  refine List.pairwise_append.mpr ⟨List.pairwise_append.mpr ⟨h.filter _, Memory.wf_listing i bs, ?_⟩,
    h.filter _, ?_⟩
  · intro x hx y hy
    have hx' : x.1 < i := by simpa using (List.mem_filter.mp hx).2
    have := Memory.mem_listing hy
    omega
  · intro x hx y hy
    have hy' : i + bs.length ≤ y.1 := by simpa using (List.mem_filter.mp hy).2
    rcases List.mem_append.mp hx with hx | hx
    · have hx' : x.1 < i := by simpa using (List.mem_filter.mp hx).2
      omega
    · have := Memory.mem_listing hx
      omega

/-- Dropping the cells at or above an index keeps the canonical form. -/
theorem Memory.wf_below {m : Memory} (h : m.wf) (n : Nat) : (m.below n).wf := h.filter _

/-- What a write lists: cells that were listed, or cells of the range written. -/
theorem Memory.mem_write {m : Memory} {i : Nat} {bs : List Byte} {c : Host.Cell} (h : c ∈ m.write i bs) :
    c ∈ m ∨ i ≤ c.1 ∧ c.1 < i + bs.length := by
  rcases List.mem_append.mp h with h | h
  · rcases List.mem_append.mp h with h | h
    · exact .inl (List.mem_filter.mp h).1
    · exact .inr (Memory.mem_listing h)
  · exact .inl (List.mem_filter.mp h).1

theorem Memory.mem_below {m : Memory} {n : Nat} {c : Host.Cell} (h : c ∈ m.below n) : c ∈ m ∧ c.1 < n := by
  simpa [Memory.below] using h

/-- Reading a byte of a buffer after storing bytes in it. -/
theorem Buf.byteAt_write (x : Buf) (b : BufName) (i : Nat) (bs : List Byte) (j : Nat) :
    (x.write i bs).byteAt b j
      = if h : i ≤ j ∧ j < i + bs.length then bs[j - i]'(by omega) else x.byteAt b j := by
  unfold Buf.byteAt Buf.write
  simp only [Memory.get?_write]
  by_cases h : i ≤ j ∧ j < i + bs.length
  · have : j - i < bs.length := by omega
    simp [h, List.getElem?_eq_getElem this]
  · simp [h]

/-- The six buffers right after reset are in canonical form. -/
theorem reset_buffers_wf (b : BufName) : (State.reset.buf b).cells.wf := by
  cases b <;> exact List.Pairwise.nil

end Sys2Proof.Machine
end

