-- ==== Sys2Proof/Laws/State.lean ====
section
/-!
SUPPORT. One lemma per field per named update of the state.
-/

namespace Sys2Proof.Machine

/-! ## done and raise -/

@[simp] theorem State.done_status (s : State) : s.done.status = 0 := rfl
@[simp] theorem State.done_errinfo (s : State) : s.done.errinfo = 0 := rfl
@[simp] theorem State.done_cmd (s : State) : s.done.cmd = s.cmd := rfl
@[simp] theorem State.done_errsticky (s : State) : s.done.errsticky = s.errsticky := rfl
@[simp] theorem State.done_cfg (s : State) : s.done.cfg = s.cfg := rfl
@[simp] theorem State.done_clientAddr (s : State) : s.done.clientAddr = s.clientAddr := rfl
@[simp] theorem State.done_srvLog (s : State) : s.done.srvLog = s.srvLog := rfl
@[simp] theorem State.done_srvPhy (s : State) : s.done.srvPhy = s.srvPhy := rfl
@[simp] theorem State.done_sss (s : State) : s.done.sss = s.sss := rfl
@[simp] theorem State.done_rrr (s : State) : s.done.rrr = s.rrr := rfl
@[simp] theorem State.done_crcAcc (s : State) : s.done.crcAcc = s.crcAcc := rfl
@[simp] theorem State.done_val (s : State) : s.done.val = s.val := rfl
@[simp] theorem State.done_strLen (s : State) : s.done.strLen = s.strLen := rfl
@[simp] theorem State.done_txpLen (s : State) : s.done.txpLen = s.txpLen := rfl
@[simp] theorem State.done_txfLen (s : State) : s.done.txfLen = s.txfLen := rfl
@[simp] theorem State.done_rxfLen (s : State) : s.done.rxfLen = s.rxfLen := rfl
@[simp] theorem State.done_rxpLen (s : State) : s.done.rxpLen = s.rxpLen := rfl
@[simp] theorem State.done_tlbLen (s : State) : s.done.tlbLen = s.tlbLen := rfl
@[simp] theorem State.done_rxCmd (s : State) : s.done.rxCmd = s.rxCmd := rfl
@[simp] theorem State.done_rxCtrl (s : State) : s.done.rxCtrl = s.rxCtrl := rfl
@[simp] theorem State.done_rxClient (s : State) : s.done.rxClient = s.rxClient := rfl
@[simp] theorem State.done_rxLog (s : State) : s.done.rxLog = s.rxLog := rfl
@[simp] theorem State.done_rxPhy (s : State) : s.done.rxPhy = s.rxPhy := rfl
@[simp] theorem State.done_rxAlen (s : State) : s.done.rxAlen = s.rxAlen := rfl
@[simp] theorem State.done_rxSss (s : State) : s.done.rxSss = s.rxSss := rfl
@[simp] theorem State.done_rxRrr (s : State) : s.done.rxRrr = s.rxRrr := rfl
@[simp] theorem State.done_tlbCur (s : State) : s.done.tlbCur = s.tlbCur := rfl
@[simp] theorem State.done_txf (s : State) : s.done.txf = s.txf := rfl
@[simp] theorem State.done_rxf (s : State) : s.done.rxf = s.rxf := rfl
@[simp] theorem State.done_txp (s : State) : s.done.txp = s.txp := rfl
@[simp] theorem State.done_rxp (s : State) : s.done.rxp = s.rxp := rfl
@[simp] theorem State.done_tlb (s : State) : s.done.tlb = s.tlb := rfl
@[simp] theorem State.done_str (s : State) : s.done.str = s.str := rfl
@[simp] theorem State.done_params (s : State) : s.done.params = s.params := rfl
@[simp] theorem State.done_hostQueue (s : State) : s.done.hostQueue = s.hostQueue := rfl
@[simp] theorem State.done_busRead (s : State) : s.done.busRead = s.busRead := rfl
@[simp] theorem State.done_hostReads (s : State) : s.done.hostReads = s.hostReads := rfl
@[simp] theorem State.raise_status (s : State) (e : CmdError) : (s.raise e).status = e.statusWord := rfl
@[simp] theorem State.raise_errinfo (s : State) (e : CmdError) : (s.raise e).errinfo = e.infoWord := rfl
@[simp] theorem State.raise_errsticky (s : State) (e : CmdError) :
    (s.raise e).errsticky = s.errsticky ||| e.stickyWord := rfl
@[simp] theorem State.raise_cmd (s : State) (e : CmdError) : (s.raise e).cmd = s.cmd := rfl
@[simp] theorem State.raise_cfg (s : State) (e : CmdError) : (s.raise e).cfg = s.cfg := rfl
@[simp] theorem State.raise_clientAddr (s : State) (e : CmdError) : (s.raise e).clientAddr = s.clientAddr := rfl
@[simp] theorem State.raise_srvLog (s : State) (e : CmdError) : (s.raise e).srvLog = s.srvLog := rfl
@[simp] theorem State.raise_srvPhy (s : State) (e : CmdError) : (s.raise e).srvPhy = s.srvPhy := rfl
@[simp] theorem State.raise_sss (s : State) (e : CmdError) : (s.raise e).sss = s.sss := rfl
@[simp] theorem State.raise_rrr (s : State) (e : CmdError) : (s.raise e).rrr = s.rrr := rfl
@[simp] theorem State.raise_crcAcc (s : State) (e : CmdError) : (s.raise e).crcAcc = s.crcAcc := rfl
@[simp] theorem State.raise_val (s : State) (e : CmdError) : (s.raise e).val = s.val := rfl
@[simp] theorem State.raise_strLen (s : State) (e : CmdError) : (s.raise e).strLen = s.strLen := rfl
@[simp] theorem State.raise_txpLen (s : State) (e : CmdError) : (s.raise e).txpLen = s.txpLen := rfl
@[simp] theorem State.raise_txfLen (s : State) (e : CmdError) : (s.raise e).txfLen = s.txfLen := rfl
@[simp] theorem State.raise_rxfLen (s : State) (e : CmdError) : (s.raise e).rxfLen = s.rxfLen := rfl
@[simp] theorem State.raise_rxpLen (s : State) (e : CmdError) : (s.raise e).rxpLen = s.rxpLen := rfl
@[simp] theorem State.raise_tlbLen (s : State) (e : CmdError) : (s.raise e).tlbLen = s.tlbLen := rfl
@[simp] theorem State.raise_rxCmd (s : State) (e : CmdError) : (s.raise e).rxCmd = s.rxCmd := rfl
@[simp] theorem State.raise_rxCtrl (s : State) (e : CmdError) : (s.raise e).rxCtrl = s.rxCtrl := rfl
@[simp] theorem State.raise_rxClient (s : State) (e : CmdError) : (s.raise e).rxClient = s.rxClient := rfl
@[simp] theorem State.raise_rxLog (s : State) (e : CmdError) : (s.raise e).rxLog = s.rxLog := rfl
@[simp] theorem State.raise_rxPhy (s : State) (e : CmdError) : (s.raise e).rxPhy = s.rxPhy := rfl
@[simp] theorem State.raise_rxAlen (s : State) (e : CmdError) : (s.raise e).rxAlen = s.rxAlen := rfl
@[simp] theorem State.raise_rxSss (s : State) (e : CmdError) : (s.raise e).rxSss = s.rxSss := rfl
@[simp] theorem State.raise_rxRrr (s : State) (e : CmdError) : (s.raise e).rxRrr = s.rxRrr := rfl
@[simp] theorem State.raise_tlbCur (s : State) (e : CmdError) : (s.raise e).tlbCur = s.tlbCur := rfl
@[simp] theorem State.raise_txf (s : State) (e : CmdError) : (s.raise e).txf = s.txf := rfl
@[simp] theorem State.raise_rxf (s : State) (e : CmdError) : (s.raise e).rxf = s.rxf := rfl
@[simp] theorem State.raise_txp (s : State) (e : CmdError) : (s.raise e).txp = s.txp := rfl
@[simp] theorem State.raise_rxp (s : State) (e : CmdError) : (s.raise e).rxp = s.rxp := rfl
@[simp] theorem State.raise_tlb (s : State) (e : CmdError) : (s.raise e).tlb = s.tlb := rfl
@[simp] theorem State.raise_str (s : State) (e : CmdError) : (s.raise e).str = s.str := rfl
@[simp] theorem State.raise_params (s : State) (e : CmdError) : (s.raise e).params = s.params := rfl
@[simp] theorem State.raise_hostQueue (s : State) (e : CmdError) : (s.raise e).hostQueue = s.hostQueue := rfl
@[simp] theorem State.raise_busRead (s : State) (e : CmdError) : (s.raise e).busRead = s.busRead := rfl
@[simp] theorem State.raise_hostReads (s : State) (e : CmdError) : (s.raise e).hostReads = s.hostReads := rfl

/-! ## putVal -/

@[simp] theorem State.putVal_val (s : State) (v : Word64) (c : Nat) : (s.putVal v c).val = v := rfl
@[simp] theorem State.putVal_tlbCur (s : State) (v : Word64) (c : Nat) :
    (s.putVal v c).tlbCur = BitVec.ofNat 16 c := rfl
@[simp] theorem State.putVal_cmd (s : State) (v : Word64) (c : Nat) : (s.putVal v c).cmd = s.cmd := rfl
@[simp] theorem State.putVal_status (s : State) (v : Word64) (c : Nat) : (s.putVal v c).status = s.status := rfl
@[simp] theorem State.putVal_errinfo (s : State) (v : Word64) (c : Nat) : (s.putVal v c).errinfo = s.errinfo := rfl
@[simp] theorem State.putVal_errsticky (s : State) (v : Word64) (c : Nat) : (s.putVal v c).errsticky = s.errsticky := rfl
@[simp] theorem State.putVal_cfg (s : State) (v : Word64) (c : Nat) : (s.putVal v c).cfg = s.cfg := rfl
@[simp] theorem State.putVal_clientAddr (s : State) (v : Word64) (c : Nat) : (s.putVal v c).clientAddr = s.clientAddr := rfl
@[simp] theorem State.putVal_srvLog (s : State) (v : Word64) (c : Nat) : (s.putVal v c).srvLog = s.srvLog := rfl
@[simp] theorem State.putVal_srvPhy (s : State) (v : Word64) (c : Nat) : (s.putVal v c).srvPhy = s.srvPhy := rfl
@[simp] theorem State.putVal_sss (s : State) (v : Word64) (c : Nat) : (s.putVal v c).sss = s.sss := rfl
@[simp] theorem State.putVal_rrr (s : State) (v : Word64) (c : Nat) : (s.putVal v c).rrr = s.rrr := rfl
@[simp] theorem State.putVal_crcAcc (s : State) (v : Word64) (c : Nat) : (s.putVal v c).crcAcc = s.crcAcc := rfl
@[simp] theorem State.putVal_strLen (s : State) (v : Word64) (c : Nat) : (s.putVal v c).strLen = s.strLen := rfl
@[simp] theorem State.putVal_txpLen (s : State) (v : Word64) (c : Nat) : (s.putVal v c).txpLen = s.txpLen := rfl
@[simp] theorem State.putVal_txfLen (s : State) (v : Word64) (c : Nat) : (s.putVal v c).txfLen = s.txfLen := rfl
@[simp] theorem State.putVal_rxfLen (s : State) (v : Word64) (c : Nat) : (s.putVal v c).rxfLen = s.rxfLen := rfl
@[simp] theorem State.putVal_rxpLen (s : State) (v : Word64) (c : Nat) : (s.putVal v c).rxpLen = s.rxpLen := rfl
@[simp] theorem State.putVal_tlbLen (s : State) (v : Word64) (c : Nat) : (s.putVal v c).tlbLen = s.tlbLen := rfl
@[simp] theorem State.putVal_rxCmd (s : State) (v : Word64) (c : Nat) : (s.putVal v c).rxCmd = s.rxCmd := rfl
@[simp] theorem State.putVal_rxCtrl (s : State) (v : Word64) (c : Nat) : (s.putVal v c).rxCtrl = s.rxCtrl := rfl
@[simp] theorem State.putVal_rxClient (s : State) (v : Word64) (c : Nat) : (s.putVal v c).rxClient = s.rxClient := rfl
@[simp] theorem State.putVal_rxLog (s : State) (v : Word64) (c : Nat) : (s.putVal v c).rxLog = s.rxLog := rfl
@[simp] theorem State.putVal_rxPhy (s : State) (v : Word64) (c : Nat) : (s.putVal v c).rxPhy = s.rxPhy := rfl
@[simp] theorem State.putVal_rxAlen (s : State) (v : Word64) (c : Nat) : (s.putVal v c).rxAlen = s.rxAlen := rfl
@[simp] theorem State.putVal_rxSss (s : State) (v : Word64) (c : Nat) : (s.putVal v c).rxSss = s.rxSss := rfl
@[simp] theorem State.putVal_rxRrr (s : State) (v : Word64) (c : Nat) : (s.putVal v c).rxRrr = s.rxRrr := rfl
@[simp] theorem State.putVal_txf (s : State) (v : Word64) (c : Nat) : (s.putVal v c).txf = s.txf := rfl
@[simp] theorem State.putVal_rxf (s : State) (v : Word64) (c : Nat) : (s.putVal v c).rxf = s.rxf := rfl
@[simp] theorem State.putVal_txp (s : State) (v : Word64) (c : Nat) : (s.putVal v c).txp = s.txp := rfl
@[simp] theorem State.putVal_rxp (s : State) (v : Word64) (c : Nat) : (s.putVal v c).rxp = s.rxp := rfl
@[simp] theorem State.putVal_tlb (s : State) (v : Word64) (c : Nat) : (s.putVal v c).tlb = s.tlb := rfl
@[simp] theorem State.putVal_str (s : State) (v : Word64) (c : Nat) : (s.putVal v c).str = s.str := rfl
@[simp] theorem State.putVal_params (s : State) (v : Word64) (c : Nat) : (s.putVal v c).params = s.params := rfl
@[simp] theorem State.putVal_hostQueue (s : State) (v : Word64) (c : Nat) : (s.putVal v c).hostQueue = s.hostQueue := rfl
@[simp] theorem State.putVal_busRead (s : State) (v : Word64) (c : Nat) : (s.putVal v c).busRead = s.busRead := rfl
@[simp] theorem State.putVal_hostReads (s : State) (v : Word64) (c : Nat) : (s.putVal v c).hostReads = s.hostReads := rfl

/-! ## setBuf: one buffer -/

@[simp] theorem State.setBuf_cmd (s : State) (b : BufName) (x : Buf) : (s.setBuf b x).cmd = s.cmd := by
  cases b <;> rfl
@[simp] theorem State.setBuf_status (s : State) (b : BufName) (x : Buf) : (s.setBuf b x).status = s.status := by
  cases b <;> rfl
@[simp] theorem State.setBuf_errinfo (s : State) (b : BufName) (x : Buf) : (s.setBuf b x).errinfo = s.errinfo := by
  cases b <;> rfl
@[simp] theorem State.setBuf_errsticky (s : State) (b : BufName) (x : Buf) : (s.setBuf b x).errsticky = s.errsticky := by
  cases b <;> rfl
@[simp] theorem State.setBuf_cfg (s : State) (b : BufName) (x : Buf) : (s.setBuf b x).cfg = s.cfg := by
  cases b <;> rfl
@[simp] theorem State.setBuf_clientAddr (s : State) (b : BufName) (x : Buf) : (s.setBuf b x).clientAddr = s.clientAddr := by
  cases b <;> rfl
@[simp] theorem State.setBuf_srvLog (s : State) (b : BufName) (x : Buf) : (s.setBuf b x).srvLog = s.srvLog := by
  cases b <;> rfl
@[simp] theorem State.setBuf_srvPhy (s : State) (b : BufName) (x : Buf) : (s.setBuf b x).srvPhy = s.srvPhy := by
  cases b <;> rfl
@[simp] theorem State.setBuf_sss (s : State) (b : BufName) (x : Buf) : (s.setBuf b x).sss = s.sss := by
  cases b <;> rfl
@[simp] theorem State.setBuf_rrr (s : State) (b : BufName) (x : Buf) : (s.setBuf b x).rrr = s.rrr := by
  cases b <;> rfl
@[simp] theorem State.setBuf_crcAcc (s : State) (b : BufName) (x : Buf) : (s.setBuf b x).crcAcc = s.crcAcc := by
  cases b <;> rfl
@[simp] theorem State.setBuf_val (s : State) (b : BufName) (x : Buf) : (s.setBuf b x).val = s.val := by
  cases b <;> rfl
@[simp] theorem State.setBuf_strLen (s : State) (b : BufName) (x : Buf) : (s.setBuf b x).strLen = s.strLen := by
  cases b <;> rfl
@[simp] theorem State.setBuf_txpLen (s : State) (b : BufName) (x : Buf) : (s.setBuf b x).txpLen = s.txpLen := by
  cases b <;> rfl
@[simp] theorem State.setBuf_txfLen (s : State) (b : BufName) (x : Buf) : (s.setBuf b x).txfLen = s.txfLen := by
  cases b <;> rfl
@[simp] theorem State.setBuf_rxfLen (s : State) (b : BufName) (x : Buf) : (s.setBuf b x).rxfLen = s.rxfLen := by
  cases b <;> rfl
@[simp] theorem State.setBuf_rxpLen (s : State) (b : BufName) (x : Buf) : (s.setBuf b x).rxpLen = s.rxpLen := by
  cases b <;> rfl
@[simp] theorem State.setBuf_tlbLen (s : State) (b : BufName) (x : Buf) : (s.setBuf b x).tlbLen = s.tlbLen := by
  cases b <;> rfl
@[simp] theorem State.setBuf_rxCmd (s : State) (b : BufName) (x : Buf) : (s.setBuf b x).rxCmd = s.rxCmd := by
  cases b <;> rfl
@[simp] theorem State.setBuf_rxCtrl (s : State) (b : BufName) (x : Buf) : (s.setBuf b x).rxCtrl = s.rxCtrl := by
  cases b <;> rfl
@[simp] theorem State.setBuf_rxClient (s : State) (b : BufName) (x : Buf) : (s.setBuf b x).rxClient = s.rxClient := by
  cases b <;> rfl
@[simp] theorem State.setBuf_rxLog (s : State) (b : BufName) (x : Buf) : (s.setBuf b x).rxLog = s.rxLog := by
  cases b <;> rfl
@[simp] theorem State.setBuf_rxPhy (s : State) (b : BufName) (x : Buf) : (s.setBuf b x).rxPhy = s.rxPhy := by
  cases b <;> rfl
@[simp] theorem State.setBuf_rxAlen (s : State) (b : BufName) (x : Buf) : (s.setBuf b x).rxAlen = s.rxAlen := by
  cases b <;> rfl
@[simp] theorem State.setBuf_rxSss (s : State) (b : BufName) (x : Buf) : (s.setBuf b x).rxSss = s.rxSss := by
  cases b <;> rfl
@[simp] theorem State.setBuf_rxRrr (s : State) (b : BufName) (x : Buf) : (s.setBuf b x).rxRrr = s.rxRrr := by
  cases b <;> rfl
@[simp] theorem State.setBuf_tlbCur (s : State) (b : BufName) (x : Buf) : (s.setBuf b x).tlbCur = s.tlbCur := by
  cases b <;> rfl
@[simp] theorem State.setBuf_params (s : State) (b : BufName) (x : Buf) : (s.setBuf b x).params = s.params := by
  cases b <;> rfl
@[simp] theorem State.setBuf_hostQueue (s : State) (b : BufName) (x : Buf) : (s.setBuf b x).hostQueue = s.hostQueue := by
  cases b <;> rfl
@[simp] theorem State.setBuf_busRead (s : State) (b : BufName) (x : Buf) : (s.setBuf b x).busRead = s.busRead := by
  cases b <;> rfl
@[simp] theorem State.setBuf_hostReads (s : State) (b : BufName) (x : Buf) : (s.setBuf b x).hostReads = s.hostReads := by
  cases b <;> rfl
@[simp] theorem State.buf_setBuf (s : State) (b : BufName) (x : Buf) : (s.setBuf b x).buf b = x := by
  cases b <;> rfl
theorem State.buf_setBuf_ne (s : State) {b b' : BufName} (h : b' ≠ b) (x : Buf) :
    (s.setBuf b x).buf b' = s.buf b' := by
  cases b <;> cases b' <;> first | rfl | exact absurd rfl h
@[simp] theorem State.len_setBuf (s : State) (b b' : BufName) (x : Buf) : (s.setBuf b x).len b' = s.len b' := by
  cases b <;> cases b' <;> rfl
@[simp] theorem State.setBuf_setBuf (s : State) (b : BufName) (x y : Buf) :
    (s.setBuf b x).setBuf b y = s.setBuf b y := by
  cases b <;> rfl
@[simp] theorem State.setBuf_buf (s : State) (b : BufName) : s.setBuf b (s.buf b) = s := by
  cases b <;> rfl

/-! ## writeBytes: the bytes of one buffer -/

@[simp] theorem State.writeBytes_cmd (s : State) (b : BufName) (i : Nat) (bs : List Byte) :
    (s.writeBytes b i bs).cmd = s.cmd := by
  cases b <;> rfl
@[simp] theorem State.writeBytes_status (s : State) (b : BufName) (i : Nat) (bs : List Byte) :
    (s.writeBytes b i bs).status = s.status := by
  cases b <;> rfl
@[simp] theorem State.writeBytes_errinfo (s : State) (b : BufName) (i : Nat) (bs : List Byte) :
    (s.writeBytes b i bs).errinfo = s.errinfo := by
  cases b <;> rfl
@[simp] theorem State.writeBytes_errsticky (s : State) (b : BufName) (i : Nat) (bs : List Byte) :
    (s.writeBytes b i bs).errsticky = s.errsticky := by
  cases b <;> rfl
@[simp] theorem State.writeBytes_cfg (s : State) (b : BufName) (i : Nat) (bs : List Byte) :
    (s.writeBytes b i bs).cfg = s.cfg := by
  cases b <;> rfl
@[simp] theorem State.writeBytes_clientAddr (s : State) (b : BufName) (i : Nat) (bs : List Byte) :
    (s.writeBytes b i bs).clientAddr = s.clientAddr := by
  cases b <;> rfl
@[simp] theorem State.writeBytes_srvLog (s : State) (b : BufName) (i : Nat) (bs : List Byte) :
    (s.writeBytes b i bs).srvLog = s.srvLog := by
  cases b <;> rfl
@[simp] theorem State.writeBytes_srvPhy (s : State) (b : BufName) (i : Nat) (bs : List Byte) :
    (s.writeBytes b i bs).srvPhy = s.srvPhy := by
  cases b <;> rfl
@[simp] theorem State.writeBytes_sss (s : State) (b : BufName) (i : Nat) (bs : List Byte) :
    (s.writeBytes b i bs).sss = s.sss := by
  cases b <;> rfl
@[simp] theorem State.writeBytes_rrr (s : State) (b : BufName) (i : Nat) (bs : List Byte) :
    (s.writeBytes b i bs).rrr = s.rrr := by
  cases b <;> rfl
@[simp] theorem State.writeBytes_crcAcc (s : State) (b : BufName) (i : Nat) (bs : List Byte) :
    (s.writeBytes b i bs).crcAcc = s.crcAcc := by
  cases b <;> rfl
@[simp] theorem State.writeBytes_val (s : State) (b : BufName) (i : Nat) (bs : List Byte) :
    (s.writeBytes b i bs).val = s.val := by
  cases b <;> rfl
@[simp] theorem State.writeBytes_strLen (s : State) (b : BufName) (i : Nat) (bs : List Byte) :
    (s.writeBytes b i bs).strLen = s.strLen := by
  cases b <;> rfl
@[simp] theorem State.writeBytes_txpLen (s : State) (b : BufName) (i : Nat) (bs : List Byte) :
    (s.writeBytes b i bs).txpLen = s.txpLen := by
  cases b <;> rfl
@[simp] theorem State.writeBytes_txfLen (s : State) (b : BufName) (i : Nat) (bs : List Byte) :
    (s.writeBytes b i bs).txfLen = s.txfLen := by
  cases b <;> rfl
@[simp] theorem State.writeBytes_rxfLen (s : State) (b : BufName) (i : Nat) (bs : List Byte) :
    (s.writeBytes b i bs).rxfLen = s.rxfLen := by
  cases b <;> rfl
@[simp] theorem State.writeBytes_rxpLen (s : State) (b : BufName) (i : Nat) (bs : List Byte) :
    (s.writeBytes b i bs).rxpLen = s.rxpLen := by
  cases b <;> rfl
@[simp] theorem State.writeBytes_tlbLen (s : State) (b : BufName) (i : Nat) (bs : List Byte) :
    (s.writeBytes b i bs).tlbLen = s.tlbLen := by
  cases b <;> rfl
@[simp] theorem State.writeBytes_rxCmd (s : State) (b : BufName) (i : Nat) (bs : List Byte) :
    (s.writeBytes b i bs).rxCmd = s.rxCmd := by
  cases b <;> rfl
@[simp] theorem State.writeBytes_rxCtrl (s : State) (b : BufName) (i : Nat) (bs : List Byte) :
    (s.writeBytes b i bs).rxCtrl = s.rxCtrl := by
  cases b <;> rfl
@[simp] theorem State.writeBytes_rxClient (s : State) (b : BufName) (i : Nat) (bs : List Byte) :
    (s.writeBytes b i bs).rxClient = s.rxClient := by
  cases b <;> rfl
@[simp] theorem State.writeBytes_rxLog (s : State) (b : BufName) (i : Nat) (bs : List Byte) :
    (s.writeBytes b i bs).rxLog = s.rxLog := by
  cases b <;> rfl
@[simp] theorem State.writeBytes_rxPhy (s : State) (b : BufName) (i : Nat) (bs : List Byte) :
    (s.writeBytes b i bs).rxPhy = s.rxPhy := by
  cases b <;> rfl
@[simp] theorem State.writeBytes_rxAlen (s : State) (b : BufName) (i : Nat) (bs : List Byte) :
    (s.writeBytes b i bs).rxAlen = s.rxAlen := by
  cases b <;> rfl
@[simp] theorem State.writeBytes_rxSss (s : State) (b : BufName) (i : Nat) (bs : List Byte) :
    (s.writeBytes b i bs).rxSss = s.rxSss := by
  cases b <;> rfl
@[simp] theorem State.writeBytes_rxRrr (s : State) (b : BufName) (i : Nat) (bs : List Byte) :
    (s.writeBytes b i bs).rxRrr = s.rxRrr := by
  cases b <;> rfl
@[simp] theorem State.writeBytes_tlbCur (s : State) (b : BufName) (i : Nat) (bs : List Byte) :
    (s.writeBytes b i bs).tlbCur = s.tlbCur := by
  cases b <;> rfl
@[simp] theorem State.writeBytes_params (s : State) (b : BufName) (i : Nat) (bs : List Byte) :
    (s.writeBytes b i bs).params = s.params := by
  cases b <;> rfl
@[simp] theorem State.writeBytes_hostQueue (s : State) (b : BufName) (i : Nat) (bs : List Byte) :
    (s.writeBytes b i bs).hostQueue = s.hostQueue := by
  cases b <;> rfl
@[simp] theorem State.writeBytes_busRead (s : State) (b : BufName) (i : Nat) (bs : List Byte) :
    (s.writeBytes b i bs).busRead = s.busRead := by
  cases b <;> rfl
@[simp] theorem State.writeBytes_hostReads (s : State) (b : BufName) (i : Nat) (bs : List Byte) :
    (s.writeBytes b i bs).hostReads = s.hostReads := by
  cases b <;> rfl
@[simp] theorem State.buf_writeBytes (s : State) (b : BufName) (i : Nat) (bs : List Byte) :
    (s.writeBytes b i bs).buf b = (s.buf b).write i bs := by
  simp [State.writeBytes]
theorem State.buf_writeBytes_ne (s : State) {b b' : BufName} (h : b' ≠ b) (i : Nat) (bs : List Byte) :
    (s.writeBytes b i bs).buf b' = s.buf b' := State.buf_setBuf_ne s h _
@[simp] theorem State.len_writeBytes (s : State) (b b' : BufName) (i : Nat) (bs : List Byte) :
    (s.writeBytes b i bs).len b' = s.len b' := State.len_setBuf s b b' _

/-! ## putLen and setLen: one length register -/

@[simp] theorem State.putLen_cmd (s : State) (b : BufName) (v : Word16) : (s.putLen b v).cmd = s.cmd := by
  cases b <;> rfl
@[simp] theorem State.putLen_status (s : State) (b : BufName) (v : Word16) : (s.putLen b v).status = s.status := by
  cases b <;> rfl
@[simp] theorem State.putLen_errinfo (s : State) (b : BufName) (v : Word16) : (s.putLen b v).errinfo = s.errinfo := by
  cases b <;> rfl
@[simp] theorem State.putLen_errsticky (s : State) (b : BufName) (v : Word16) : (s.putLen b v).errsticky = s.errsticky := by
  cases b <;> rfl
@[simp] theorem State.putLen_cfg (s : State) (b : BufName) (v : Word16) : (s.putLen b v).cfg = s.cfg := by
  cases b <;> rfl
@[simp] theorem State.putLen_clientAddr (s : State) (b : BufName) (v : Word16) : (s.putLen b v).clientAddr = s.clientAddr := by
  cases b <;> rfl
@[simp] theorem State.putLen_srvLog (s : State) (b : BufName) (v : Word16) : (s.putLen b v).srvLog = s.srvLog := by
  cases b <;> rfl
@[simp] theorem State.putLen_srvPhy (s : State) (b : BufName) (v : Word16) : (s.putLen b v).srvPhy = s.srvPhy := by
  cases b <;> rfl
@[simp] theorem State.putLen_sss (s : State) (b : BufName) (v : Word16) : (s.putLen b v).sss = s.sss := by
  cases b <;> rfl
@[simp] theorem State.putLen_rrr (s : State) (b : BufName) (v : Word16) : (s.putLen b v).rrr = s.rrr := by
  cases b <;> rfl
@[simp] theorem State.putLen_crcAcc (s : State) (b : BufName) (v : Word16) : (s.putLen b v).crcAcc = s.crcAcc := by
  cases b <;> rfl
@[simp] theorem State.putLen_val (s : State) (b : BufName) (v : Word16) : (s.putLen b v).val = s.val := by
  cases b <;> rfl
@[simp] theorem State.putLen_rxCmd (s : State) (b : BufName) (v : Word16) : (s.putLen b v).rxCmd = s.rxCmd := by
  cases b <;> rfl
@[simp] theorem State.putLen_rxCtrl (s : State) (b : BufName) (v : Word16) : (s.putLen b v).rxCtrl = s.rxCtrl := by
  cases b <;> rfl
@[simp] theorem State.putLen_rxClient (s : State) (b : BufName) (v : Word16) : (s.putLen b v).rxClient = s.rxClient := by
  cases b <;> rfl
@[simp] theorem State.putLen_rxLog (s : State) (b : BufName) (v : Word16) : (s.putLen b v).rxLog = s.rxLog := by
  cases b <;> rfl
@[simp] theorem State.putLen_rxPhy (s : State) (b : BufName) (v : Word16) : (s.putLen b v).rxPhy = s.rxPhy := by
  cases b <;> rfl
@[simp] theorem State.putLen_rxAlen (s : State) (b : BufName) (v : Word16) : (s.putLen b v).rxAlen = s.rxAlen := by
  cases b <;> rfl
@[simp] theorem State.putLen_rxSss (s : State) (b : BufName) (v : Word16) : (s.putLen b v).rxSss = s.rxSss := by
  cases b <;> rfl
@[simp] theorem State.putLen_rxRrr (s : State) (b : BufName) (v : Word16) : (s.putLen b v).rxRrr = s.rxRrr := by
  cases b <;> rfl
@[simp] theorem State.putLen_tlbCur (s : State) (b : BufName) (v : Word16) : (s.putLen b v).tlbCur = s.tlbCur := by
  cases b <;> rfl
@[simp] theorem State.putLen_txf (s : State) (b : BufName) (v : Word16) : (s.putLen b v).txf = s.txf := by
  cases b <;> rfl
@[simp] theorem State.putLen_rxf (s : State) (b : BufName) (v : Word16) : (s.putLen b v).rxf = s.rxf := by
  cases b <;> rfl
@[simp] theorem State.putLen_txp (s : State) (b : BufName) (v : Word16) : (s.putLen b v).txp = s.txp := by
  cases b <;> rfl
@[simp] theorem State.putLen_rxp (s : State) (b : BufName) (v : Word16) : (s.putLen b v).rxp = s.rxp := by
  cases b <;> rfl
@[simp] theorem State.putLen_tlb (s : State) (b : BufName) (v : Word16) : (s.putLen b v).tlb = s.tlb := by
  cases b <;> rfl
@[simp] theorem State.putLen_str (s : State) (b : BufName) (v : Word16) : (s.putLen b v).str = s.str := by
  cases b <;> rfl
@[simp] theorem State.putLen_params (s : State) (b : BufName) (v : Word16) : (s.putLen b v).params = s.params := by
  cases b <;> rfl
@[simp] theorem State.putLen_hostQueue (s : State) (b : BufName) (v : Word16) : (s.putLen b v).hostQueue = s.hostQueue := by
  cases b <;> rfl
@[simp] theorem State.putLen_busRead (s : State) (b : BufName) (v : Word16) : (s.putLen b v).busRead = s.busRead := by
  cases b <;> rfl
@[simp] theorem State.putLen_hostReads (s : State) (b : BufName) (v : Word16) : (s.putLen b v).hostReads = s.hostReads := by
  cases b <;> rfl
@[simp] theorem State.len_putLen (s : State) (b : BufName) (v : Word16) : (s.putLen b v).len b = v := by
  cases b <;> rfl
theorem State.len_putLen_ne (s : State) {b b' : BufName} (h : b' ≠ b) (v : Word16) :
    (s.putLen b v).len b' = s.len b' := by
  cases b <;> cases b' <;> first | rfl | exact absurd rfl h
@[simp] theorem State.buf_putLen (s : State) (b b' : BufName) (v : Word16) : (s.putLen b v).buf b' = s.buf b' := by
  cases b <;> cases b' <;> rfl
@[simp] theorem State.setLen_cmd (s : State) (b : BufName) (v : Word16) : (s.setLen b v).cmd = s.cmd := by
  unfold State.setLen; split <;> simp
@[simp] theorem State.setLen_status (s : State) (b : BufName) (v : Word16) : (s.setLen b v).status = s.status := by
  unfold State.setLen; split <;> simp
@[simp] theorem State.setLen_errinfo (s : State) (b : BufName) (v : Word16) : (s.setLen b v).errinfo = s.errinfo := by
  unfold State.setLen; split <;> simp
@[simp] theorem State.setLen_errsticky (s : State) (b : BufName) (v : Word16) : (s.setLen b v).errsticky = s.errsticky := by
  unfold State.setLen; split <;> simp
@[simp] theorem State.setLen_cfg (s : State) (b : BufName) (v : Word16) : (s.setLen b v).cfg = s.cfg := by
  unfold State.setLen; split <;> simp
@[simp] theorem State.setLen_clientAddr (s : State) (b : BufName) (v : Word16) : (s.setLen b v).clientAddr = s.clientAddr := by
  unfold State.setLen; split <;> simp
@[simp] theorem State.setLen_srvLog (s : State) (b : BufName) (v : Word16) : (s.setLen b v).srvLog = s.srvLog := by
  unfold State.setLen; split <;> simp
@[simp] theorem State.setLen_srvPhy (s : State) (b : BufName) (v : Word16) : (s.setLen b v).srvPhy = s.srvPhy := by
  unfold State.setLen; split <;> simp
@[simp] theorem State.setLen_sss (s : State) (b : BufName) (v : Word16) : (s.setLen b v).sss = s.sss := by
  unfold State.setLen; split <;> simp
@[simp] theorem State.setLen_rrr (s : State) (b : BufName) (v : Word16) : (s.setLen b v).rrr = s.rrr := by
  unfold State.setLen; split <;> simp
@[simp] theorem State.setLen_crcAcc (s : State) (b : BufName) (v : Word16) : (s.setLen b v).crcAcc = s.crcAcc := by
  unfold State.setLen; split <;> simp
@[simp] theorem State.setLen_val (s : State) (b : BufName) (v : Word16) : (s.setLen b v).val = s.val := by
  unfold State.setLen; split <;> simp
@[simp] theorem State.setLen_rxCmd (s : State) (b : BufName) (v : Word16) : (s.setLen b v).rxCmd = s.rxCmd := by
  unfold State.setLen; split <;> simp
@[simp] theorem State.setLen_rxCtrl (s : State) (b : BufName) (v : Word16) : (s.setLen b v).rxCtrl = s.rxCtrl := by
  unfold State.setLen; split <;> simp
@[simp] theorem State.setLen_rxClient (s : State) (b : BufName) (v : Word16) : (s.setLen b v).rxClient = s.rxClient := by
  unfold State.setLen; split <;> simp
@[simp] theorem State.setLen_rxLog (s : State) (b : BufName) (v : Word16) : (s.setLen b v).rxLog = s.rxLog := by
  unfold State.setLen; split <;> simp
@[simp] theorem State.setLen_rxPhy (s : State) (b : BufName) (v : Word16) : (s.setLen b v).rxPhy = s.rxPhy := by
  unfold State.setLen; split <;> simp
@[simp] theorem State.setLen_rxAlen (s : State) (b : BufName) (v : Word16) : (s.setLen b v).rxAlen = s.rxAlen := by
  unfold State.setLen; split <;> simp
@[simp] theorem State.setLen_rxSss (s : State) (b : BufName) (v : Word16) : (s.setLen b v).rxSss = s.rxSss := by
  unfold State.setLen; split <;> simp
@[simp] theorem State.setLen_rxRrr (s : State) (b : BufName) (v : Word16) : (s.setLen b v).rxRrr = s.rxRrr := by
  unfold State.setLen; split <;> simp
@[simp] theorem State.setLen_tlbCur (s : State) (b : BufName) (v : Word16) : (s.setLen b v).tlbCur = s.tlbCur := by
  unfold State.setLen; split <;> simp
@[simp] theorem State.setLen_params (s : State) (b : BufName) (v : Word16) : (s.setLen b v).params = s.params := by
  unfold State.setLen; split <;> simp
@[simp] theorem State.setLen_hostQueue (s : State) (b : BufName) (v : Word16) : (s.setLen b v).hostQueue = s.hostQueue := by
  unfold State.setLen; split <;> simp
@[simp] theorem State.setLen_busRead (s : State) (b : BufName) (v : Word16) : (s.setLen b v).busRead = s.busRead := by
  unfold State.setLen; split <;> simp
@[simp] theorem State.setLen_hostReads (s : State) (b : BufName) (v : Word16) : (s.setLen b v).hostReads = s.hostReads := by
  unfold State.setLen; split <;> simp
@[simp] theorem State.len_setLen (s : State) (b : BufName) (v : Word16) : (s.setLen b v).len b = v := by
  unfold State.setLen; split <;> simp
theorem State.len_setLen_ne (s : State) {b b' : BufName} (h : b' ≠ b) (v : Word16) :
    (s.setLen b v).len b' = s.len b' := by
  unfold State.setLen; split <;> simp [State.len_putLen_ne _ h]
/-- Lowering a length register makes the bytes at and above it unspecified; raising it changes no byte. -/
theorem State.buf_setLen (s : State) (b : BufName) (v : Word16) :
    (s.setLen b v).buf b = if v < s.len b then (s.buf b).truncate v.toNat else s.buf b := by
  unfold State.setLen; split <;> simp
theorem State.buf_setLen_ne (s : State) {b b' : BufName} (h : b' ≠ b) (v : Word16) :
    (s.setLen b v).buf b' = s.buf b' := by
  unfold State.setLen; split <;> simp [State.buf_setBuf_ne _ h]

/-! ## Capacities -/

@[simp] theorem State.cap_setBuf (s : State) (b b' : BufName) (x : Buf) : (s.setBuf b x).cap b' = s.cap b' := by
  simp [State.cap]
@[simp] theorem State.cap_setLen (s : State) (b b' : BufName) (v : Word16) : (s.setLen b v).cap b' = s.cap b' := by
  simp [State.cap]
@[simp] theorem State.cap_writeBytes (s : State) (b b' : BufName) (i : Nat) (bs : List Byte) :
    (s.writeBytes b i bs).cap b' = s.cap b' := by
  simp [State.cap]

end Sys2Proof.Machine
end

