-- ==== Sys2Proof/Laws/Ops.lean ====
section
/-!
SUPPORT. For each shared operation, one lemma that says once everything it can do.
-/

namespace Sys2Proof.Machine

/-! ## Checks and the end of a command -/

/-- A check followed by the rest of a command. -/
@[simp] theorem raiseIf_bind {α : Type} (c : Prop) [Decidable c] (e : CmdError) (f : Unit → Except CmdError α) :
    (raiseIf c e >>= f) = if c then .error e else f () := by
  unfold raiseIf; split <;> rfl

/-- A check passes when its condition does not hold. -/
theorem raiseIf_eq_ok {c : Prop} [Decidable c] {e : CmdError} {u : Unit} : raiseIf c e = .ok u ↔ ¬ c := by
  unfold raiseIf; split <;> simp_all

/-- A sequence of two parts of a command succeeds when both do. -/
theorem bind_eq_ok {α β : Type} {x : Except CmdError α} {f : α → Except CmdError β} {b : β} :
    (x >>= f) = .ok b ↔ ∃ a, x = .ok a ∧ f a = .ok b := by
  cases x with
  | error e => simp [bind, Except.bind]
  | ok a => simp [bind, Except.bind]

@[simp] theorem State.finish_ok (s t : State) : s.finish (.ok t) = .next t.done := rfl
@[simp] theorem State.finish_error (s : State) (e : CmdError) : s.finish (.error e) = .next (s.raise e) := rfl

/-- A command ends with `done` after its writes, or with `raise` from where it started. -/
theorem State.finish_cases {s t : State} {r : Except CmdError State} (h : s.finish r = .next t) :
    (∃ u, r = .ok u ∧ t = u.done) ∨ ∃ e, r = .error e ∧ t = s.raise e := by
  cases r with
  | error e => simp at h; exact .inr ⟨e, rfl, h.symm⟩
  | ok u => simp at h; exact .inl ⟨u, rfl, h.symm⟩

/-! ## Reading and writing bytes -/

@[simp] theorem State.length_readBytes (s : State) (b : BufName) (i n : Nat) : (s.readBytes b i n).length = n := by
  simp [State.readBytes]

theorem State.getElem?_readBytes (s : State) (b : BufName) (i n k : Nat) :
    (s.readBytes b i n)[k]? = if k < n then some (s.byteAt b (i + k)) else none := by
  by_cases h : k < n <;> simp [State.readBytes, h]

/-- Two states that agree on every byte of a range read the same bytes there. -/
theorem State.readBytes_congr {s t : State} {b : BufName} {i n : Nat}
    (h : ∀ k, k < n → s.byteAt b (i + k) = t.byteAt b (i + k)) : s.readBytes b i n = t.readBytes b i n := by
  simp only [State.readBytes]
  exact List.map_congr_left fun k hk => h k (List.mem_range.mp hk)

/-- Reading one byte after storing bytes in the same buffer. -/
theorem State.byteAt_writeBytes (s : State) (b : BufName) (i : Nat) (bs : List Byte) (j : Nat) :
    (s.writeBytes b i bs).byteAt b j
      = if h : i ≤ j ∧ j < i + bs.length then bs[j - i]'(by omega) else s.byteAt b j := by
  simp only [State.byteAt, State.buf_writeBytes]
  exact Buf.byteAt_write _ b i bs j

/-- What was stored is what is read. -/
theorem State.readBytes_writeBytes (s : State) (b : BufName) (i : Nat) (bs : List Byte) :
    (s.writeBytes b i bs).readBytes b i bs.length = bs := by
  apply List.ext_getElem (by simp)
  intro k h1 h2
  simp [State.readBytes, State.byteAt_writeBytes, h2]

/-- Cells below the new length survive the lowering of a length register. -/
theorem Memory.get?_below_of_lt {m : Memory} {n j : Nat} (h : j < n) : (m.below n).get? j = m.get? j := by
  simp [Memory.get?_below, h]

/-! ## The cursor helpers -/

/-- Everything `append` can do when it succeeds. -/
theorem State.append_eq_ok {s t : State} {bs : List Byte} :
    s.append bs = .ok t ↔
      s.tlbLen.toNat ≤ s.params.tlbCap ∧ s.tlbLen.toNat + bs.length ≤ s.params.tlbCap
        ∧ t = (s.writeBytes .tlb s.tlbLen.toNat bs).setLen .tlb (BitVec.ofNat 16 (s.tlbLen.toNat + bs.length)) := by
  unfold State.append
  simp only [raiseIf_bind]
  split
  · simp; omega
  · split
    · simp; omega
    · simp only [pure, Except.pure, Except.ok.injEq]
      constructor
      · rintro rfl; exact ⟨by omega, by omega, rfl⟩
      · rintro ⟨-, -, rfl⟩; rfl

theorem State.need_eq_ok {s : State} {q sub : Nat} {u : Unit} : s.need q sub = .ok u ↔ q ≤ s.tlbLen.toNat := by
  simp [State.need, raiseIf_eq_ok]

/-- Everything `dec_open` can do when it succeeds. -/
theorem State.decOpen_eq_ok {s : State} {tag : Byte} {p : Nat} :
    s.decOpen tag = .ok p ↔
      s.tlbLen.toNat ≤ s.params.tlbCap ∧ p = s.tlbCur.toNat ∧ p < s.tlbLen.toNat ∧ s.tlbAt p = tag := by
  unfold State.decOpen State.tlbCheck
  simp only [raiseIf_bind]
  split
  · simp; omega
  · split
    · simp; omega
    · split
      · rename_i h; simp; rintro - rfl; simp_all
      · rename_i h1 h2 h3
        simp only [pure, Except.pure, Except.ok.injEq]
        constructor
        · rintro rfl; exact ⟨by omega, rfl, by omega, by simpa using h3⟩
        · rintro ⟨-, rfl, -, -⟩; rfl

/-- Everything `rsize_at` can do when it succeeds: the short form, or one to four length bytes. -/
theorem State.rsizeAt_eq_ok {s : State} {q n k : Nat} :
    s.rsizeAt q = .ok (n, k) ↔
      q + 1 ≤ s.tlbLen.toNat ∧
        ((s.tlbAt q).toNat ≤ 0x80 ∧ n = (s.tlbAt q).toNat ∧ k = 1
          ∨ 0x80 < (s.tlbAt q).toNat ∧ (s.tlbAt q).toNat < 0x85
            ∧ q + 1 + ((s.tlbAt q).toNat - 0x80) ≤ s.tlbLen.toNat
            ∧ n = ofBe (s.readBytes .tlb (q + 1) ((s.tlbAt q).toNat - 0x80))
            ∧ k = 1 + ((s.tlbAt q).toNat - 0x80)) := by
  unfold State.rsizeAt State.need
  simp only [raiseIf_bind]
  split
  · simp; omega
  · split
    · simp only [pure, Except.pure, Except.ok.injEq, Prod.mk.injEq]
      constructor
      · rintro ⟨rfl, rfl⟩; exact ⟨by omega, .inl ⟨by omega, rfl, rfl⟩⟩
      · rintro ⟨-, ⟨-, rfl, rfl⟩ | h⟩
        · exact ⟨rfl, rfl⟩
        · omega
    · split
      · simp; omega
      · split
        · simp; omega
        · simp only [pure, Except.pure, Except.ok.injEq, Prod.mk.injEq]
          constructor
          · rintro ⟨rfl, rfl⟩
            exact ⟨by omega, .inr ⟨by omega, by omega, by omega, rfl, rfl⟩⟩
          · rintro ⟨-, h | ⟨-, -, -, hn, hk⟩⟩
            · omega
            · exact ⟨hn.symm, hk.symm⟩

/-! ## The frame encoder -/

theorem alenBytes_cases {a : BitVec 2} {na : Nat} (h : alenBytes a = some na) : na = 1 ∨ na = 2 ∨ na = 4 := by
  unfold alenBytes at h
  split at h
  · simp_all
  · split at h
    · simp_all
    · split at h <;> simp_all

/-- The checks of `henc` pass exactly on operands in range. -/
theorem State.hencChecks_eq_ok {s : State} {na : Nat} :
    s.hencChecks = .ok na ↔
      s.txpLen.toNat ≤ s.params.payCap ∧ alenBytes s.srvAlen = some na ∧ s.clientAddr.toNat ≤ 0x7F
        ∧ s.srvLog.toNat ≤ maxLog na ∧ s.srvPhy.toNat ≤ maxPhy na := by
  unfold State.hencChecks
  simp only [raiseIf_bind]
  split
  · simp; omega
  · cases ha : alenBytes s.srvAlen with
    | none => simp
    | some n =>
      simp only [Option.some.injEq]
      split
      · simp; omega
      · split
        · simp only [reduceCtorEq, false_iff]; rintro ⟨-, rfl, -, h, -⟩; omega
        · split
          · simp only [reduceCtorEq, false_iff]; rintro ⟨-, rfl, -, -, h⟩; omega
          · simp only [pure, Except.pure, Except.ok.injEq]
            constructor
            · rintro rfl; exact ⟨by omega, rfl, by omega, by omega, by omega⟩
            · rintro ⟨-, rfl, -⟩; rfl

/-- Everything `henc` can do when it succeeds. -/
theorem State.henc_eq_ok {s t : State} {c : FrameCmd} :
    s.henc c = .ok t ↔
      ∃ na, s.hencChecks = .ok na ∧ frameLen na (s.txInfo c).length ≤ 0xFFF
        ∧ t = (s.writeBytes .txf 0 (s.txFrame c na)).setLen .txf
            (BitVec.ofNat 16 (frameLen na (s.txInfo c).length + 2)) := by
  unfold State.henc
  rw [bind_eq_ok]
  apply exists_congr
  intro na
  simp only [raiseIf_bind, and_congr_right_iff]
  intro _
  split
  · simp; omega
  · simp only [pure, Except.pure, Except.ok.injEq]
    exact ⟨fun h => ⟨by omega, h.symm⟩, fun h => h.2.symm⟩

@[simp] theorem length_le16 (v : Word16) : (le16 v).length = 2 := rfl

/-- The length of a laid-out frame: its LEN plus the two flags (30_encoding.md R86). -/
theorem length_frameOf (LEN na : Nat) (addr info : List Byte) (ctrl : Byte) (h : addr.length = na + 1) :
    (frameOf (frameHeader LEN addr ctrl) info).length = frameLen na info.length + 2 := by
  unfold frameOf frameBody frameHeader frameLen
  by_cases hi : info = []
  · simp [hi, h]; omega
  · have : info.length ≠ 0 := by simpa using hi
    simp [hi, h]; omega

/-! ## The frame decoder -/

/-- HDEC's three ends (44_hdlc_decode.md R171, R172, R184). -/
theorem execHdec_cases (s : State) :
    (Config.frameCap < s.rxfLen.toNat ∧ execHdec s = .next (s.raise ⟨.invalidOperand, 4, 0⟩)) ∨
    (s.rxfLen.toNat ≤ Config.frameCap ∧
      ((∃ e, hdecParse s.params s.llcRxSel s.rxFrame = .error e ∧ execHdec s = .next (s.clearRx.raise e)) ∨
        ∃ r, hdecParse s.params s.llcRxSel s.rxFrame = .ok r ∧ execHdec s = .next (s.putRx r).done)) := by
  unfold execHdec
  by_cases h : Config.frameCap < s.rxfLen.toNat
  · simp [h]
  · refine .inr ⟨by omega, ?_⟩
    rw [if_neg h]
    cases hp : hdecParse s.params s.llcRxSel s.rxFrame with
    | error e => exact .inl ⟨e, rfl, rfl⟩
    | ok r => exact .inr ⟨r, rfl, rfl⟩

end Sys2Proof.Machine
end

