-- ==== Sys2Proof/Laws/PerInstr.lean ====
section
/-!
SUPPORT. Statements made once per command, one lemma per constructor of Instr.
-/

namespace Sys2Proof.Laws.EncodingLegal

/-- The command word of a command is legal (30_encoding.md R81, R83). -/
def Statement (i : Instr) : Prop := legalWord (encode i) = true

/-- A word whose OP takes an immediate byte is legal whatever the byte is (30_encoding.md R83). -/
theorem legal_of_immediate {op b : Byte} (h : immediateOps.contains op = true) : legalWord (word op b) = true := by
  have hop : opOf (word op b) = op := BitVec.extractLsb'_append_eq_right
  simp only [legalWord, hop, h, Bool.or_true, Bool.true_or]

theorem nop : Statement .nop := rfl
theorem srst : Statement .srst := rfl
theorem clrerr : Statement .clrerr := rfl
theorem crcInit : Statement .crcInit := rfl
theorem crcUpd (b : Byte) : Statement (.crcUpd b) := legal_of_immediate (by decide)
theorem crcUpds : Statement .crcUpds := rfl
theorem seqReset : Statement .seqReset := rfl
theorem seqTxdone : Statement .seqTxdone := rfl
theorem seqRxdone : Statement .seqRxdone := rfl
theorem hencI : Statement .hencI := rfl
theorem hencRr : Statement .hencRr := rfl
theorem hencRnr : Statement .hencRnr := rfl
theorem hencSnrm : Statement .hencSnrm := rfl
theorem hencDisc : Statement .hencDisc := rfl
theorem hencUi : Statement .hencUi := rfl
theorem hencUa : Statement .hencUa := rfl
theorem hencDm : Statement .hencDm := rfl
theorem hencFrmr : Statement .hencFrmr := rfl
theorem hdec : Statement .hdec := rfl
theorem xferT2p : Statement .xferT2p := rfl
theorem xferP2t : Statement .xferP2t := rfl
theorem xferF2r : Statement .xferF2r := rfl
theorem tlvEncArr : Statement .tlvEncArr := rfl
theorem tlvEncStruct : Statement .tlvEncStruct := rfl
theorem tlvEncBool : Statement .tlvEncBool := rfl
theorem tlvEncBstr : Statement .tlvEncBstr := rfl
theorem tlvEncI32 : Statement .tlvEncI32 := rfl
theorem tlvEncU32 : Statement .tlvEncU32 := rfl
theorem tlvEncOstr : Statement .tlvEncOstr := rfl
theorem tlvEncVstr : Statement .tlvEncVstr := rfl
theorem tlvEncI8 : Statement .tlvEncI8 := rfl
theorem tlvEncI16 : Statement .tlvEncI16 := rfl
theorem tlvEncU8 : Statement .tlvEncU8 := rfl
theorem tlvEncU16 : Statement .tlvEncU16 := rfl
theorem tlvEncI64 : Statement .tlvEncI64 := rfl
theorem tlvEncU64 : Statement .tlvEncU64 := rfl
theorem tlvEncEnum : Statement .tlvEncEnum := rfl
theorem tlvEncF32 : Statement .tlvEncF32 := rfl
theorem tlvEncF64 : Statement .tlvEncF64 := rfl
theorem tlvDecArr : Statement .tlvDecArr := rfl
theorem tlvDecStruct : Statement .tlvDecStruct := rfl
theorem tlvDecBool : Statement .tlvDecBool := rfl
theorem tlvDecBstr : Statement .tlvDecBstr := rfl
theorem tlvDecI32 : Statement .tlvDecI32 := rfl
theorem tlvDecU32 : Statement .tlvDecU32 := rfl
theorem tlvDecOstr : Statement .tlvDecOstr := rfl
theorem tlvDecVstr : Statement .tlvDecVstr := rfl
theorem tlvDecI8 : Statement .tlvDecI8 := rfl
theorem tlvDecI16 : Statement .tlvDecI16 := rfl
theorem tlvDecU8 : Statement .tlvDecU8 := rfl
theorem tlvDecU16 : Statement .tlvDecU16 := rfl
theorem tlvDecI64 : Statement .tlvDecI64 := rfl
theorem tlvDecU64 : Statement .tlvDecU64 := rfl
theorem tlvDecEnum : Statement .tlvDecEnum := rfl
theorem tlvDecF32 : Statement .tlvDecF32 := rfl
theorem tlvDecF64 : Statement .tlvDecF64 := rfl
theorem tlvWsize : Statement .tlvWsize := rfl
theorem tlvRsize : Statement .tlvRsize := rfl
theorem tlvPutb (b : Byte) : Statement (.tlvPutb b) := legal_of_immediate (by decide)
theorem tlvGetb : Statement .tlvGetb := rfl
theorem tlvClr : Statement .tlvClr := rfl
theorem tlvRew : Statement .tlvRew := rfl

end Sys2Proof.Laws.EncodingLegal
end

