-- ==== Sys2Proof/Tests/Slice0.lean ====
section
/-!
SUPPORT. Tests: ill-formed terms that the checks refuse, command words written out from the spec, steps whose
results are those of 95_test_vectors.md, and for every statement with hypotheses a state that meets them.
-/

namespace Sys2Proof.Tests

open Sys2Proof.Machine

set_option Elab.async false

/-! ## Helpers -/

/-- A state after reset with the default addresses of 95_test_vectors.md. -/
def base : State := { State.reset with clientAddr := 0x10, srvLog := 1 }

/-- `s` with `bs` at the start of a buffer and their number in its length register. -/
def load (b : BufName) (bs : List Byte) (s : State) : State :=
  (s.writeBytes b 0 bs).putLen b (BitVec.ofNat 16 bs.length)

/-- `s` with `a` as the host's next action. -/
def queued (a : HostAction) (s : State) : State := { s with hostQueue := [a] }

/-- `s` with the small capacities of 95_test_vectors.md. -/
def caps (pay tlb str : Nat) (s : State) : State :=
  { s with params := { s.params with payCap := pay, tlbCap := tlb, strCap := str } }

/-- What `f` sees in the next state, if there is one. -/
def seen {α : Type} (o : Host.Outcome State Fault Refusal) (f : State → α) : Option α :=
  match o with
  | .next t => some (f t)
  | _ => none

/-- A value seen in the next state is a value of a next state. -/
theorem next_of_seen {α : Type} {o : Host.Outcome State Fault Refusal} {f : State → α} {a : α}
    (h : seen o f = some a) : ∃ t, o = .next t ∧ f t = a := by
  cases o with
  | next t => exact ⟨t, rfl, by simpa [seen] using h⟩
  | fault r => simp [seen] at h
  | refused r => simp [seen] at h

/-- The step that runs the command word `w` from `s`, seen through `f`. -/
def runs {α : Type} (s : State) (w : Nat) (f : State → α) : Option α := seen (step (s.withFetchWord 16 w)) f

/-- STATUS, ERRINFO.SUB and ERRINFO.OFF. -/
def report (t : State) : Nat × Nat × Nat := (t.status.toNat, t.errinfo.toNat / 65536, t.errinfo.toNat % 65536)

/-- The bytes below the length register. -/
def bytesOf (t : State) (b : BufName) : List Byte := t.readBytes b 0 (t.len b).toNat

/-! ## Ill-formed terms (00_scope.md R6, 30_encoding.md R83, R94) -/

theorem test_wf_default : Config.default.wf = true := by decide +kernel
theorem test_wf_payCap_low : { Config.default with payCap := 254 }.wf = false := by decide +kernel
theorem test_wf_tlbCap_high : { Config.default with tlbCap := 65536 }.wf = false := by decide +kernel
theorem test_wf_strCap_low : { Config.default with strCap := 254 }.wf = false := by decide +kernel
theorem test_wf_tag_bit4 : { Config.defaultTags with tagRR := 0x11 }.wf = false := by decide +kernel
theorem test_wf_tagI_low_bits : { Config.defaultTags with tagI := 0x01 }.wf = false := by decide +kernel
theorem test_wf_tag_unclassified : { Config.defaultTags with tagUA := 0x67 }.wf = false := by decide +kernel
theorem test_wf_tag_taken : { Config.defaultTags with tagUA := 0x43 }.wf = false := by decide +kernel
theorem test_wf_I_unclassified : { Config.defaultTags with rules := Config.defaultTags.rules.tail }.wf = false := by
  decide +kernel
theorem test_illegal_op : [0x0003, 0x000F, 0x0013, 0x001B, 0x0022, 0x0033, 0x0048, 0x00FF].all (fun w => !legalWord w)
    = true := by decide +kernel
theorem test_illegal_arg : [0x0100, 0xFF02, 0x0110, 0x0118, 0x0121, 0x0130, 0x0142, 0x0147].all (fun w => !legalWord w)
    = true := by decide +kernel
theorem test_illegal_frame : [0x0920, 0xFF20].all (fun w => !legalWord w) = true := by decide +kernel
theorem test_illegal_tag : [0x0040, 0x0740, 0x1340, 0x1940, 0xFF40, 0x0041, 0x0741, 0x1941].all (fun w => !legalWord w)
    = true := by decide +kernel
theorem test_decode_rejects_by_clause :
    decode 0x0003 = .error .opNotAssigned ∧ decode 0x0100 = .error .argNotZero
      ∧ decode 0x0920 = .error .frameIndexAbove8 ∧ decode 0x0740 = .error .notATag ∧ decode 0x1941 = .error .notATag := by
  decide

/-! ## Command words, ARG then OP, written from 30_encoding.md R80, R81, R100 -/

theorem test_decode_system :
    decode 0b0000000000000000 = .ok .nop
      ∧ decode 0b0000000000000001 = .ok .srst
      ∧ decode 0b0000000000000010 = .ok .clrerr := by decide

theorem test_decode_crc :
    decode 0b0000000000010000 = .ok .crcInit
      ∧ decode 0b0011000100010001 = .ok (.crcUpd 0x31)
      ∧ decode 0b0000000000010010 = .ok .crcUpds := by decide

theorem test_decode_seq :
    decode 0b0000000000011000 = .ok .seqReset
      ∧ decode 0b0000000000011001 = .ok .seqTxdone
      ∧ decode 0b0000000000011010 = .ok .seqRxdone := by decide

theorem test_decode_frames :
    decode 0b0000000000100000 = .ok .hencI
      ∧ decode 0b0000000100100000 = .ok .hencRr
      ∧ decode 0b0000001000100000 = .ok .hencRnr
      ∧ decode 0b0000001100100000 = .ok .hencSnrm
      ∧ decode 0b0000010000100000 = .ok .hencDisc
      ∧ decode 0b0000010100100000 = .ok .hencUi
      ∧ decode 0b0000011000100000 = .ok .hencUa
      ∧ decode 0b0000011100100000 = .ok .hencDm
      ∧ decode 0b0000100000100000 = .ok .hencFrmr
      ∧ decode 0b0000000000100001 = .ok .hdec := by decide

theorem test_decode_xfer :
    decode 0b0000000000110000 = .ok .xferT2p
      ∧ decode 0b0000000000110001 = .ok .xferP2t
      ∧ decode 0b0000000000110010 = .ok .xferF2r := by decide

theorem test_decode_cursor :
    decode 0b0000000001000010 = .ok .tlvWsize
      ∧ decode 0b0000000001000011 = .ok .tlvRsize
      ∧ decode 0b1100000001000100 = .ok (.tlvPutb 0xC0)
      ∧ decode 0b0000000001000101 = .ok .tlvGetb
      ∧ decode 0b0000000001000110 = .ok .tlvClr
      ∧ decode 0b0000000001000111 = .ok .tlvRew := by decide

theorem test_decode_tlvEnc :
    decode 0b0000000101000000 = .ok .tlvEncArr
      ∧ decode 0b0000001001000000 = .ok .tlvEncStruct
      ∧ decode 0b0000001101000000 = .ok .tlvEncBool
      ∧ decode 0b0000010001000000 = .ok .tlvEncBstr
      ∧ decode 0b0000010101000000 = .ok .tlvEncI32
      ∧ decode 0b0000011001000000 = .ok .tlvEncU32
      ∧ decode 0b0000100101000000 = .ok .tlvEncOstr
      ∧ decode 0b0000101001000000 = .ok .tlvEncVstr
      ∧ decode 0b0000111101000000 = .ok .tlvEncI8
      ∧ decode 0b0001000001000000 = .ok .tlvEncI16
      ∧ decode 0b0001000101000000 = .ok .tlvEncU8
      ∧ decode 0b0001001001000000 = .ok .tlvEncU16
      ∧ decode 0b0001010001000000 = .ok .tlvEncI64
      ∧ decode 0b0001010101000000 = .ok .tlvEncU64
      ∧ decode 0b0001011001000000 = .ok .tlvEncEnum
      ∧ decode 0b0001011101000000 = .ok .tlvEncF32
      ∧ decode 0b0001100001000000 = .ok .tlvEncF64 := by decide

theorem test_decode_tlvDec :
    decode 0b0000000101000001 = .ok .tlvDecArr
      ∧ decode 0b0000001001000001 = .ok .tlvDecStruct
      ∧ decode 0b0000001101000001 = .ok .tlvDecBool
      ∧ decode 0b0000010001000001 = .ok .tlvDecBstr
      ∧ decode 0b0000010101000001 = .ok .tlvDecI32
      ∧ decode 0b0000011001000001 = .ok .tlvDecU32
      ∧ decode 0b0000100101000001 = .ok .tlvDecOstr
      ∧ decode 0b0000101001000001 = .ok .tlvDecVstr
      ∧ decode 0b0000111101000001 = .ok .tlvDecI8
      ∧ decode 0b0001000001000001 = .ok .tlvDecI16
      ∧ decode 0b0001000101000001 = .ok .tlvDecU8
      ∧ decode 0b0001001001000001 = .ok .tlvDecU16
      ∧ decode 0b0001010001000001 = .ok .tlvDecI64
      ∧ decode 0b0001010101000001 = .ok .tlvDecU64
      ∧ decode 0b0001011001000001 = .ok .tlvDecEnum
      ∧ decode 0b0001011101000001 = .ok .tlvDecF32
      ∧ decode 0b0001100001000001 = .ok .tlvDecF64 := by decide

/-- The words spec/opcode_table.json's numbering gives: bit 0 is the least significant bit of the one word. -/
theorem test_decodeTableWord : decodeTableWord 16 0x0320 = some .hencSnrm ∧ decodeTableWord 16 0x0920 = none := by decide

/-! ## The CRC table, written out from 41_crc.md R131 -/

def crcRows0 : List Word16 :=
  [0x0000, 0x1189, 0x2312, 0x329B, 0x4624, 0x57AD, 0x6536, 0x74BF,
   0x8C48, 0x9DC1, 0xAF5A, 0xBED3, 0xCA6C, 0xDBE5, 0xE97E, 0xF8F7,
   0x1081, 0x0108, 0x3393, 0x221A, 0x56A5, 0x472C, 0x75B7, 0x643E,
   0x9CC9, 0x8D40, 0xBFDB, 0xAE52, 0xDAED, 0xCB64, 0xF9FF, 0xE876,
   0x2102, 0x308B, 0x0210, 0x1399, 0x6726, 0x76AF, 0x4434, 0x55BD,
   0xAD4A, 0xBCC3, 0x8E58, 0x9FD1, 0xEB6E, 0xFAE7, 0xC87C, 0xD9F5,
   0x3183, 0x200A, 0x1291, 0x0318, 0x77A7, 0x662E, 0x54B5, 0x453C,
   0xBDCB, 0xAC42, 0x9ED9, 0x8F50, 0xFBEF, 0xEA66, 0xD8FD, 0xC974]

def crcRows1 : List Word16 :=
  [0x4204, 0x538D, 0x6116, 0x709F, 0x0420, 0x15A9, 0x2732, 0x36BB,
   0xCE4C, 0xDFC5, 0xED5E, 0xFCD7, 0x8868, 0x99E1, 0xAB7A, 0xBAF3,
   0x5285, 0x430C, 0x7197, 0x601E, 0x14A1, 0x0528, 0x37B3, 0x263A,
   0xDECD, 0xCF44, 0xFDDF, 0xEC56, 0x98E9, 0x8960, 0xBBFB, 0xAA72,
   0x6306, 0x728F, 0x4014, 0x519D, 0x2522, 0x34AB, 0x0630, 0x17B9,
   0xEF4E, 0xFEC7, 0xCC5C, 0xDDD5, 0xA96A, 0xB8E3, 0x8A78, 0x9BF1,
   0x7387, 0x620E, 0x5095, 0x411C, 0x35A3, 0x242A, 0x16B1, 0x0738,
   0xFFCF, 0xEE46, 0xDCDD, 0xCD54, 0xB9EB, 0xA862, 0x9AF9, 0x8B70]

def crcRows2 : List Word16 :=
  [0x8408, 0x9581, 0xA71A, 0xB693, 0xC22C, 0xD3A5, 0xE13E, 0xF0B7,
   0x0840, 0x19C9, 0x2B52, 0x3ADB, 0x4E64, 0x5FED, 0x6D76, 0x7CFF,
   0x9489, 0x8500, 0xB79B, 0xA612, 0xD2AD, 0xC324, 0xF1BF, 0xE036,
   0x18C1, 0x0948, 0x3BD3, 0x2A5A, 0x5EE5, 0x4F6C, 0x7DF7, 0x6C7E,
   0xA50A, 0xB483, 0x8618, 0x9791, 0xE32E, 0xF2A7, 0xC03C, 0xD1B5,
   0x2942, 0x38CB, 0x0A50, 0x1BD9, 0x6F66, 0x7EEF, 0x4C74, 0x5DFD,
   0xB58B, 0xA402, 0x9699, 0x8710, 0xF3AF, 0xE226, 0xD0BD, 0xC134,
   0x39C3, 0x284A, 0x1AD1, 0x0B58, 0x7FE7, 0x6E6E, 0x5CF5, 0x4D7C]

def crcRows3 : List Word16 :=
  [0xC60C, 0xD785, 0xE51E, 0xF497, 0x8028, 0x91A1, 0xA33A, 0xB2B3,
   0x4A44, 0x5BCD, 0x6956, 0x78DF, 0x0C60, 0x1DE9, 0x2F72, 0x3EFB,
   0xD68D, 0xC704, 0xF59F, 0xE416, 0x90A9, 0x8120, 0xB3BB, 0xA232,
   0x5AC5, 0x4B4C, 0x79D7, 0x685E, 0x1CE1, 0x0D68, 0x3FF3, 0x2E7A,
   0xE70E, 0xF687, 0xC41C, 0xD595, 0xA12A, 0xB0A3, 0x8238, 0x93B1,
   0x6B46, 0x7ACF, 0x4854, 0x59DD, 0x2D62, 0x3CEB, 0x0E70, 0x1FF9,
   0xF78F, 0xE606, 0xD49D, 0xC514, 0xB1AB, 0xA022, 0x92B9, 0x8330,
   0x7BC7, 0x6A4E, 0x58D5, 0x495C, 0x3DE3, 0x2C6A, 0x1EF1, 0x0F78]

theorem test_crcTab0 : (List.range 64).map (fun j => crcTab (BitVec.ofNat 8 (0 + j))) = crcRows0 := by
  decide +kernel
theorem test_crcTab1 : (List.range 64).map (fun j => crcTab (BitVec.ofNat 8 (64 + j))) = crcRows1 := by
  decide +kernel
theorem test_crcTab2 : (List.range 64).map (fun j => crcTab (BitVec.ofNat 8 (128 + j))) = crcRows2 := by
  decide +kernel
theorem test_crcTab3 : (List.range 64).map (fun j => crcTab (BitVec.ofNat 8 (192 + j))) = crcRows3 := by
  decide +kernel

/-- The check value (41_crc.md R133 e) and the rows of 95_test_vectors.md section 3. -/
theorem test_crc16 :
    crc16 [] = 0 ∧ crc16 [0x00] = 0xF078 ∧ crc16 [0xFF] = 0xFF00
      ∧ crc16 [0x31, 0x32, 0x33, 0x34, 0x35, 0x36, 0x37, 0x38, 0x39] = 0x906E
      ∧ crc16 [0xA0, 0x07, 0x03, 0x21, 0x93] = 0x010F := by decide +kernel

/-! ## Reset and steps (70_reset_and_hazards.md R301, R318) -/

theorem test_reset : State.reset.crcAcc = 0xFFFF ∧ State.reset.rxCmd = 15 ∧ State.reset.readReg .crcOut = 0 := by decide
theorem test_reset_memory : ∀ b : BufName, (State.reset.buf b).cells.wf := by intro b; cases b <;> decide
theorem test_idle : step State.reset = .next State.reset := rfl
/-- 95_test_vectors.md section 1. -/
theorem test_illegal_word : runs base 0x0100 (fun t => (report t, t.errsticky, t.cmd)) = some ((8, 0, 0), 0x0100, 0x0100) := by
  decide +kernel
/-- 10_state.md R45, R26. -/
theorem test_write_narrow : seen (step (queued (.wr .sss 0xFD) base)) (·.sss) = some 5
    ∧ seen (step (queued (.wr .cfg 0xFFFD) base)) (·.cfg) = some 5 := by decide +kernel
/-- 10_state.md R44. -/
theorem test_write_read_only : seen (step (queued (.wr .rxCmd 3) base)) (·.rxCmd) = some 15
    ∧ seen (step (queued (.wrb .txf 0 [1]) base)) (·.txf.cells) = some [] := by decide +kernel
theorem test_write_capacity : seen (step (queued (.wrb .tlb 254 [7, 8]) (caps 255 255 255 base))) (·.tlb.cells) = some [(254, 7)] := by
  decide +kernel
theorem test_read : seen (step (queued (.rd .crcOut) { base with crcAcc := 0x6F91 })) (·.busRead) = some (.reg 0x906E)
    ∧ seen (step (queued (.rdb .tlb 1 1) (load .tlb [0xC4, 0x01] base))) (·.busRead) = some (.bytes [0x01]) := by decide +kernel
theorem test_read_beyond_capacity :
    step (queued (.rdb .rxf 4096 2) base) = .fault (.hostReadBeyondCapacity .rxf) := by rfl
/-- 10_state.md R43: a byte above the length register survives until the length is lowered. -/
theorem test_lowered_length : seen (step (queued (.wr .tlbLen 1) (load .tlb [1, 2, 3] base))) (·.tlb) = some ⟨[(0, 1)], 1⟩ := by
  decide +kernel

/-! ## System, CRC, sequence and transfer commands (95_test_vectors.md sections 2 to 4) -/

theorem test_nop : runs { base with status := 3, errinfo := 0x010017, errsticky := 8 } 0x0000 (fun t => (report t, t.errsticky))
    = some ((0, 0, 0), 8) := by decide +kernel
theorem test_srst : runs { base with sss := 5, cfg := 5, crcAcc := 0x1234, errsticky := 0x28, tlbLen := 40, txfLen := 27 } 0x0001
      (fun t => (t.sss, t.cfg, t.crcAcc, t.errsticky, t.tlbLen, t.txfLen, t.rxCmd, t.cmd))
    = some (0, 0, 0xFFFF, 0, 0, 0, 15, 1) := by decide +kernel
theorem test_clrerr : runs { base with errsticky := 0x28 } 0x0002 (fun t => (report t, t.errsticky)) = some ((0, 0, 0), 0) := by
  decide +kernel
theorem test_crcInit : runs { base with crcAcc := 0x1234 } 0x0010 (·.crcAcc) = some 0xFFFF := by decide +kernel
theorem test_crcUpd : runs base 0x3111 (·.crcAcc) = some 0x2F8D ∧ runs base 0x0011 (·.crcAcc) = some 0x0F87 := by
  decide +kernel
theorem test_crcUpds : runs (load .str [0x36, 0x37, 0x38, 0x39] { base with crcAcc := 0x44BF }) 0x0012 (·.crcAcc) = some 0x6F91 := by
  decide +kernel
theorem test_crcUpds_range : runs { base with strLen := 5000, crcAcc := 0x44BF } 0x0012 (fun t => (report t, t.errsticky, t.crcAcc))
    = some ((9, 2, 0), 0x0200, 0x44BF) := by decide +kernel
theorem test_seqReset : runs { base with sss := 5, rrr := 2 } 0x0018 (fun t => (t.sss, t.rrr)) = some (0, 0) := by decide +kernel
theorem test_seqTxdone : runs { base with sss := 7, rrr := 3 } 0x0019 (fun t => (t.sss, t.rrr)) = some (0, 3) := by decide +kernel
theorem test_seqRxdone : runs { base with rrr := 7, sss := 4 } 0x001A (fun t => (t.sss, t.rrr)) = some (4, 0) := by decide +kernel
theorem test_xferT2p : runs (load .tlb [0xC0, 0x01, 0xC1] { base with tlbCur := 2 }) 0x0030 (fun t => (bytesOf t .txp, t.tlbCur))
    = some ([0xC0, 0x01, 0xC1], 2) := by decide +kernel
theorem test_xferT2p_order : runs { caps 255 4096 4096 base with tlbLen := 4097 } 0x0030 report = some (9, 1, 0)
    ∧ runs { caps 255 4096 4096 base with tlbLen := 256 } 0x0030 report = some (10, 1, 0) := by decide +kernel
theorem test_xferP2t : runs (load .rxp [0xC4, 0x01] { base with tlbLen := 30, tlbCur := 9 }) 0x0031 (fun t => (bytesOf t .tlb, t.tlbCur))
    = some ([0xC4, 0x01], 0) := by decide +kernel
theorem test_xferP2t_capacity : runs { caps 4096 255 4096 base with rxpLen := 256, tlbCur := 4 } 0x0031 (fun t => (report t, t.tlbCur))
    = some ((10, 2, 0), 4) := by decide +kernel
theorem test_xferF2r : runs (load .txf [0x7E, 0xA0, 0x07, 0x03, 0x21, 0x93, 0x0F, 0x01, 0x7E] base) 0x0032 (fun t => (bytesOf t .rxf, t.txfLen))
    = some ([0x7E, 0xA0, 0x07, 0x03, 0x21, 0x93, 0x0F, 0x01, 0x7E], 9) := by decide +kernel

/-! ## The frame encoder (95_test_vectors.md section 5) -/

theorem test_hencI : runs base 0x0020 (bytesOf · .txf)
    = some [0x7E, 0xA0, 0x0C, 0x03, 0x21, 0x30, 0x8B, 0x56, 0xE6, 0xE6, 0x00, 0x46, 0xAD, 0x7E] := by decide +kernel
theorem test_hencRr : runs base 0x0120 (bytesOf · .txf)
    = some [0x7E, 0xA0, 0x07, 0x03, 0x21, 0x11, 0x15, 0xA6, 0x7E] := by decide +kernel
theorem test_hencRnr : runs base 0x0220 (bytesOf · .txf)
    = some [0x7E, 0xA0, 0x07, 0x03, 0x21, 0x15, 0x31, 0xE0, 0x7E] := by decide +kernel
theorem test_hencSnrm : runs base 0x0320 (bytesOf · .txf)
    = some [0x7E, 0xA0, 0x07, 0x03, 0x21, 0x93, 0x0F, 0x01, 0x7E] := by decide +kernel
theorem test_hencDisc : runs base 0x0420 (bytesOf · .txf)
    = some [0x7E, 0xA0, 0x07, 0x03, 0x21, 0x53, 0x03, 0xC7, 0x7E] := by decide +kernel
theorem test_hencUi : runs base 0x0520 (bytesOf · .txf)
    = some [0x7E, 0xA0, 0x07, 0x03, 0x21, 0x13, 0x07, 0x85, 0x7E] := by decide +kernel
theorem test_hencUa : runs base 0x0620 (bytesOf · .txf)
    = some [0x7E, 0xA0, 0x07, 0x03, 0x21, 0x73, 0x01, 0xE6, 0x7E] := by decide +kernel
theorem test_hencDm : runs base 0x0720 (bytesOf · .txf)
    = some [0x7E, 0xA0, 0x07, 0x03, 0x21, 0x1F, 0x6B, 0x4F, 0x7E] := by decide +kernel
theorem test_hencFrmr : runs base 0x0820 (bytesOf · .txf)
    = some [0x7E, 0xA0, 0x07, 0x03, 0x21, 0x97, 0x2B, 0x47, 0x7E] := by decide +kernel
/-- 43_hdlc_encode.md R164, the last row. -/
theorem test_hencI_addresses : runs { base with cfg := 4, srvLog := 0x3FFF, srvPhy := 0x3FFF, clientAddr := 0x7F, sss := 7, rrr := 7 } 0x0020
      (bytesOf · .txf)
    = some [0x7E, 0xA0, 0x0F, 0xFE, 0xFE, 0xFE, 0xFF, 0xFF, 0x1E, 0x2F, 0xF9, 0xE6, 0xE6, 0x00, 0x46, 0xAD, 0x7E] := by decide +kernel
/-- 43_hdlc_encode.md R158. -/
theorem test_hencSnrm_payload : runs (load .txp [0x81, 0x80, 0x00] base) 0x0320 (bytesOf · .txf)
    = some [0x7E, 0xA0, 0x0C, 0x03, 0x21, 0x93, 0x1A, 0xC1, 0x81, 0x80, 0x00, 0x8B, 0x15, 0x7E] := by decide +kernel
theorem test_hencDisc_alen : runs { base with cfg := 6 } 0x0420 (fun t => (report t, t.txfLen)) = some ((9, 5, 0), 0) := by decide +kernel

/-! ## The frame decoder (95_test_vectors.md section 6) -/

/-- An I frame with the LLC header `E6 E7 00`. -/
def frameI : List Byte := [0x7E, 0xA0, 0x0C, 0x03, 0x21, 0xFE, 0xF9, 0x79, 0xE6, 0xE7, 0x00, 0x9E, 0xB4, 0x7E]

theorem test_hdec : runs (load .rxf frameI base) 0x0021
      (fun t => [t.status.toNat, t.rxCmd.toNat, t.rxClient.toNat, t.rxLog.toNat, t.rxAlen.toNat, t.rxSss.toNat, t.rxRrr.toNat])
    = some [0, 0, 0x10, 1, 1, 6, 7] := by decide +kernel
theorem test_hdec_fails : runs (load .rxf [0x7E, 0xA0, 0x0B, 0x02, 0x02, 0x02, 0x02, 0x03, 0x21, 0x93, 0xEB, 0x46, 0x7E] { base with rxCmd := 1 })
      0x0021 (fun t => (report t, t.rxCmd)) = some ((1, 5, 7), 15) := by decide +kernel

/-! ## The TLV cursor (95_test_vectors.md section 7) -/

theorem test_tlvClr : runs { base with tlbLen := 13, tlbCur := 4 } 0x0046 (fun t => (t.tlbLen, t.tlbCur)) = some (0, 0) := by decide +kernel
theorem test_tlvRew : runs { base with tlbLen := 13, tlbCur := 13 } 0x0047 (fun t => (t.tlbLen, t.tlbCur)) = some (13, 0) := by decide +kernel
theorem test_tlvPutb : runs base 0xC044 (fun t => (bytesOf t .tlb, t.tlbCur)) = some ([0xC0], 0) := by decide +kernel
theorem test_tlvPutb_full : runs { caps 255 255 255 base with tlbLen := 255 } 0xAA44 (fun t => (report t, t.tlbLen)) = some ((10, 4, 0), 255) := by
  decide +kernel
theorem test_tlvGetb : runs (load .tlb [0xC4, 0x01] { base with val := 0xFFFFFFFFFFFFFFFF }) 0x0045 (fun t => (t.val, t.tlbCur)) = some (0xC4, 1) := by
  decide +kernel
theorem test_tlvGetb_end : runs { base with tlbLen := 4, tlbCur := 4 } 0x0045 (fun t => (report t, t.tlbCur)) = some ((6, 1, 4), 4) := by
  decide +kernel
theorem test_tlvWsize : runs { base with val := 0x1FFFFFFFF } 0x0042 (bytesOf · .tlb) = some [0x84, 0xFF, 0xFF, 0xFF, 0xFF]
    ∧ runs { base with val := 0x80 } 0x0042 (bytesOf · .tlb) = some [0x80] := by decide +kernel
theorem test_tlvRsize : runs (load .tlb [0x84, 0x00, 0x00, 0x00, 0x05] base) 0x0043 (fun t => (t.val, t.tlbCur)) = some (5, 5)
    ∧ runs (load .tlb [0x80] base) 0x0043 (fun t => (t.val, t.tlbCur)) = some (0x80, 1) := by decide +kernel
theorem test_tlvRsize_malformed : runs (load .tlb [0xAA, 0x90] { base with tlbCur := 1 }) 0x0043 report = some (7, 0, 1) := by decide +kernel

/-! ## The TLV encoders (95_test_vectors.md section 8) -/

theorem test_tlvEncArr : runs { base with val := 0xC8 } 0x0140 (bytesOf · .tlb)
    = some [0x01, 0x81, 0xC8] := by decide +kernel
theorem test_tlvEncStruct : runs { base with val := 0x10000 } 0x0240 (bytesOf · .tlb)
    = some [0x02, 0x83, 0x01, 0x00, 0x00] := by decide +kernel
theorem test_tlvEncBool : runs { base with val := 0x100 } 0x0340 (bytesOf · .tlb)
    = some [0x03, 0x01] := by decide +kernel
theorem test_tlvEncBstr : runs (load .str [0xAB, 0xC0] { base with val := 0xC }) 0x0440 (bytesOf · .tlb)
    = some [0x04, 0x0C, 0xAB, 0xC0] := by decide +kernel
theorem test_tlvEncI32 : runs { base with val := 0xFFFFFFFFFFFE1DC0 } 0x0540 (bytesOf · .tlb)
    = some [0x05, 0xFF, 0xFE, 0x1D, 0xC0] := by decide +kernel
theorem test_tlvEncU32 : runs { base with val := 0xDEADBEEF } 0x0640 (bytesOf · .tlb)
    = some [0x06, 0xDE, 0xAD, 0xBE, 0xEF] := by decide +kernel
theorem test_tlvEncOstr : runs (load .str [0x01, 0x00, 0x01, 0x08, 0x00, 0xFF] base) 0x0940 (bytesOf · .tlb)
    = some [0x09, 0x06, 0x01, 0x00, 0x01, 0x08, 0x00, 0xFF] := by decide +kernel
theorem test_tlvEncVstr : runs (load .str [0x30, 0x2E, 0x31, 0x2E, 0x31] base) 0x0A40 (bytesOf · .tlb)
    = some [0x0A, 0x05, 0x30, 0x2E, 0x31, 0x2E, 0x31] := by decide +kernel
theorem test_tlvEncI8 : runs { base with val := 0x17F } 0x0F40 (bytesOf · .tlb)
    = some [0x0F, 0x7F] := by decide +kernel
theorem test_tlvEncI16 : runs { base with val := 0xFFFFFFFFFFFFFFFE } 0x1040 (bytesOf · .tlb)
    = some [0x10, 0xFF, 0xFE] := by decide +kernel
theorem test_tlvEncU8 : runs { base with val := 0xC8 } 0x1140 (bytesOf · .tlb)
    = some [0x11, 0xC8] := by decide +kernel
theorem test_tlvEncU16 : runs { base with val := 0x12345 } 0x1240 (bytesOf · .tlb)
    = some [0x12, 0x23, 0x45] := by decide +kernel
theorem test_tlvEncI64 : runs { base with val := 0x8000000000000000 } 0x1440 (bytesOf · .tlb)
    = some [0x14, 0x80, 0x00, 0x00, 0x00, 0x00, 0x00, 0x00, 0x00] := by decide +kernel
theorem test_tlvEncU64 : runs { base with val := 0x123456789ABCDEF } 0x1540 (bytesOf · .tlb)
    = some [0x15, 0x01, 0x23, 0x45, 0x67, 0x89, 0xAB, 0xCD, 0xEF] := by decide +kernel
theorem test_tlvEncEnum : runs { base with val := 0x1E } 0x1640 (bytesOf · .tlb)
    = some [0x16, 0x1E] := by decide +kernel
theorem test_tlvEncF32 : runs { base with val := 0x3FC00000 } 0x1740 (bytesOf · .tlb)
    = some [0x17, 0x3F, 0xC0, 0x00, 0x00] := by decide +kernel
theorem test_tlvEncF64 : runs { base with val := 0x3FF8000000000000 } 0x1840 (bytesOf · .tlb)
    = some [0x18, 0x3F, 0xF8, 0x00, 0x00, 0x00, 0x00, 0x00, 0x00] := by decide +kernel
theorem test_tlvEncBstr_count : runs (load .str [0xFF] { base with val := 9 }) 0x0440 report = some (9, 9, 0) := by decide +kernel
theorem test_tlvEncU16_full : runs { caps 255 255 255 base with tlbLen := 253 } 0x1240 (fun t => (report t, t.tlb.cells)) = some ((10, 4, 0), []) := by
  decide +kernel

/-! ## The TLV decoders (95_test_vectors.md section 9) -/

/-- The start of each row: VAL, STR and STR_LEN hold old values. -/
def decBase (bs : List Byte) : State := load .tlb bs (load .str [0x99] { base with val := 0x1111 })

theorem test_tlvDecArr : runs (decBase [0x01, 0x81, 0xC8]) 0x0141 (fun t => t.val)
    = some 0xC8 := by decide +kernel
theorem test_tlvDecStruct : runs (decBase [0x02, 0x82, 0x00, 0x05]) 0x0241 (fun t => t.val)
    = some 0x5 := by decide +kernel
theorem test_tlvDecBool : runs (decBase [0x03, 0xFF]) 0x0341 (fun t => t.val)
    = some 0x1 := by decide +kernel
theorem test_tlvDecBstr : runs (decBase [0x04, 0x0C, 0xAB, 0xC0]) 0x0441 (fun t => (t.val, bytesOf t .str))
    = some (0xC, [0xAB, 0xC0]) := by decide +kernel
theorem test_tlvDecI32 : runs (decBase [0x05, 0x80, 0x00, 0x00, 0x00]) 0x0541 (fun t => t.val)
    = some 0xFFFFFFFF80000000 := by decide +kernel
theorem test_tlvDecU32 : runs (decBase [0x06, 0xDE, 0xAD, 0xBE, 0xEF]) 0x0641 (fun t => t.val)
    = some 0xDEADBEEF := by decide +kernel
theorem test_tlvDecOstr : runs (decBase [0x09, 0x06, 0x01, 0x00, 0x01, 0x08, 0x00, 0xFF]) 0x0941 (fun t => (t.val, bytesOf t .str))
    = some (0x1111, [0x01, 0x00, 0x01, 0x08, 0x00, 0xFF]) := by decide +kernel
theorem test_tlvDecVstr : runs (decBase [0x0A, 0x06, 0x30, 0x2E, 0x31, 0x2E, 0x31, 0x00]) 0x0A41 (fun t => bytesOf t .str)
    = some [0x30, 0x2E, 0x31, 0x2E, 0x31, 0x00] := by decide +kernel
theorem test_tlvDecI8 : runs (decBase [0x0F, 0xFF]) 0x0F41 (fun t => t.val)
    = some 0xFFFFFFFFFFFFFFFF := by decide +kernel
theorem test_tlvDecI16 : runs (decBase [0x10, 0xFF, 0xFE]) 0x1041 (fun t => t.val)
    = some 0xFFFFFFFFFFFFFFFE := by decide +kernel
theorem test_tlvDecU8 : runs (decBase [0x11, 0xC8]) 0x1141 (fun t => t.val)
    = some 0xC8 := by decide +kernel
theorem test_tlvDecU16 : runs (decBase [0x12, 0x12, 0x34]) 0x1241 (fun t => t.val)
    = some 0x1234 := by decide +kernel
theorem test_tlvDecI64 : runs (decBase [0x14, 0xFF, 0xFF, 0xFF, 0xFF, 0xFF, 0xFF, 0xFF, 0xFF]) 0x1441 (fun t => t.val)
    = some 0xFFFFFFFFFFFFFFFF := by decide +kernel
theorem test_tlvDecU64 : runs (decBase [0x15, 0x01, 0x23, 0x45, 0x67, 0x89, 0xAB, 0xCD, 0xEF]) 0x1541 (fun t => t.val)
    = some 0x123456789ABCDEF := by decide +kernel
theorem test_tlvDecEnum : runs (decBase [0x16, 0x1E]) 0x1641 (fun t => t.val)
    = some 0x1E := by decide +kernel
theorem test_tlvDecF32 : runs (decBase [0x17, 0x3F, 0xC0, 0x00, 0x00]) 0x1741 (fun t => t.val)
    = some 0x3FC00000 := by decide +kernel
theorem test_tlvDecF64 : runs (decBase [0x18, 0x3F, 0xF8, 0x00, 0x00, 0x00, 0x00, 0x00, 0x00]) 0x1841 (fun t => t.val)
    = some 0x3FF8000000000000 := by decide +kernel
/-- 47_tlv_decode.md R259. -/
theorem test_tlvDecU16_order : runs (decBase [0x11]) 0x1241 report = some (5, 0, 0) ∧ runs (decBase [0x12]) 0x1241 report = some (6, 3, 0) := by
  decide +kernel
theorem test_tlvDecOstr_long : runs (decBase [0x09, 0x84, 0xFF, 0xFF, 0xFF, 0xFF]) 0x0941 (fun t => (report t, t.strLen)) = some ((6, 3, 0), 1) := by
  decide +kernel

/-! ## Witnesses: states and operands that meet the hypotheses of each statement -/

open Sys2Proof.Claims

theorem witness_EveryWordIsACommandOrIllegal :
    (queued (.wr .cmd 0xABCD0920) base).hostQueue = .wr .cmd 0xABCD0920 :: []
      ∧ legalWord ((0xABCD0920 : Word64).setWidth 16) = false := by decide

theorem witness_StepRunsTheDecodedCommand :
    (queued (.wr .cmd 0x0320) base).hostQueue = .wr .cmd 0x0320 :: [] ∧ decode ((0x0320 : Word64).setWidth 16) = .ok .hencSnrm
      ∧ base.hostQueue = [] := by decide

theorem witness_HostWritesRegisters :
    (queued (.wr .cfg 0xFFFFFFFFFFFFFFFF) base).hostQueue = .wr .cfg 0xFFFFFFFFFFFFFFFF :: [] ∧ Reg.cfg ≠ .cmd
      ∧ regAccess .cfg = .RW ∧ regAccess .rxCmd ≠ .RW
      ∧ seen (step (queued (.wr .tlbLen 2) (load .tlb [1, 2, 3] base))) (·.tlbLen) = some 2 := by decide +kernel

theorem witness_HostWritesBufferBytes :
    (queued (.wrb .txf 0 [1]) base).hostQueue = .wrb .txf 0 [1] :: []
      ∧ (queued (.wrb .str 4095 [1, 2]) base).hostQueue = .wrb .str 4095 [1, 2] :: [] ∧ 4095 + 0 < base.cap .str
      ∧ base.cap .str ≤ 4095 + 1 := by decide +kernel

theorem witness_HostReadsHaveNoSideEffect :
    (queued (.rd .val) base).hostQueue = .rd .val :: []
      ∧ ((queued (.rdb .rxf 4096 1) base).hostQueue = .rdb .rxf 4096 1 :: [] ∧ 4096 + 1 ≤ base.cap .rxf)
      ∧ ((queued (.rdb .rxf 4096 2) base).hostQueue = .rdb .rxf 4096 2 :: [] ∧ base.cap .rxf < 4096 + 2)
      ∧ ((queued (.rdb .rxf 4098 0) base).hostQueue = .rdb .rxf 4098 0 :: [] ∧ base.cap .rxf < 4098 + 0)
      ∧ (∃ t, perform (.wr .tlbLen 1) (load .tlb [1, 2, 3] base) = .next t ∧ t.tlbLen = 1)
      ∧ ∃ t, perform (.wrb .tlb 1 [9]) (load .tlb [1, 2, 3] base) = .next t ∧ t.tlbLen = 3 :=
  ⟨by decide, by decide, by decide, by decide, next_of_seen (f := (·.tlbLen)) (by decide +kernel), next_of_seen (f := (·.tlbLen)) (by decide +kernel)⟩

theorem witness_BytesAboveALoweredLengthLoseTheirValue :
    ((BufName.tlb, Reg.tlbLen) ∈ [(BufName.rxf, Reg.rxfLen), (.txp, .txpLen), (.tlb, .tlbLen), (.str, .strLen)]
        ∧ (queued (.wr .tlbLen 0x10002) (load .tlb [1, 2, 3] base)).hostQueue = .wr .tlbLen 0x10002 :: []
        ∧ (0x10002 : Word64).setWidth 16 < (load .tlb [1, 2, 3] base).len .tlb
        ∧ ¬ (3 : Word64).setWidth 16 < (load .tlb [1, 2, 3] base).len .tlb)
      ∧ (queued (.rdb .tlb 3 1) (load .tlb [1, 2, 3] base)).hostQueue = .rdb .tlb 3 1 :: [] ∧ 3 < (load .tlb [1, 2, 3] base).cap .tlb
      ∧ ((load .tlb [1, 2, 3] base).len .tlb).toNat ≤ 3 := by decide +kernel

theorem witness_ResetLeavesTheStatedValues :
    (queued .reset base).hostQueue = .reset :: []
      ∧ (queued (.wr .cmd 0xF0001) base).hostQueue = .wr .cmd 0xF0001 :: [] ∧ (0xF0001 : Word64).setWidth 16 = 0x0001#16 := by decide

theorem witness_CrcCommandsComplete :
    { base with strLen := 4096 }.strLen.toNat ≤ base.params.strCap ∧ base.params.strCap < { base with strLen := 4097 }.strLen.toNat := by
  decide

theorem witness_CrcIsLinear : [(1 : Byte), 2].length = [(3 : Byte), 4].length := rfl
theorem witness_CrcDetectsEverySingleBit :
    7 < 8 ∧ 1 < [(1 : Byte), 2].length ∧ 3 < [(1 : Byte), 2].length + 2 := by decide

theorem witness_XferT2pCompletes :
    { base with tlbLen := 4096 }.tlbLen.toNat ≤ base.params.tlbCap ∧ { base with tlbLen := 4096 }.tlbLen.toNat ≤ base.params.payCap
      ∧ base.params.tlbCap < { base with tlbLen := 4097 }.tlbLen.toNat
      ∧ { base with tlbLen := 256 }.tlbLen.toNat ≤ (caps 255 256 255 base).params.tlbCap
      ∧ (caps 255 256 255 base).params.payCap < { base with tlbLen := 256 }.tlbLen.toNat := by decide

theorem witness_XferP2tCompletes :
    { base with rxpLen := 4096 }.rxpLen.toNat ≤ base.params.tlbCap ∧ base.params.tlbCap < { base with rxpLen := 4097 }.rxpLen.toNat := by
  decide

/-- The longest I frame, and a frame without information field. -/
theorem witness_HencBuildsTheFrame :
    (let s := { base with txpLen := 4083 };
      alenBytes s.srvAlen = some 1 ∧ s.txpLen.toNat ≤ s.params.payCap ∧ s.clientAddr.toNat ≤ 0x7F ∧ s.srvLog.toNat ≤ maxLog 1
        ∧ s.srvPhy.toNat ≤ maxPhy 1 ∧ 8 + 1 + ([0xE6, 0xE6, 0x00] ++ s.readBytes .txp 0 s.txpLen.toNat).length = 0xFFF)
      ∧ (let s := { base with cfg := 4, srvLog := 0x3FFF, srvPhy := 0x3FFF, clientAddr := 0x7F };
        alenBytes s.srvAlen = some 4 ∧ s.txpLen.toNat ≤ s.params.payCap ∧ s.clientAddr.toNat ≤ 0x7F ∧ s.srvLog.toNat ≤ maxLog 4
          ∧ s.srvPhy.toNat ≤ maxPhy 4 ∧ ([] ++ s.readBytes .txp 0 s.txpLen.toNat).length = 0 ∧ 6 + 4 ≤ 0xFFF) := by
  refine ⟨⟨by decide, by decide, by decide, by decide, by decide, ?_⟩, by decide +kernel⟩
  rw [List.length_append, State.length_readBytes]; decide

theorem witness_LargestPayloads :
    let s := { base with cfg := 2, srvPhy := 0x7F, srvLog := 0x7F, txpLen := 4085 };
    alenBytes s.srvAlen = some 2 ∧ s.txpLen.toNat ≤ s.params.payCap ∧ s.clientAddr.toNat ≤ 0x7F ∧ s.srvLog.toNat ≤ maxLog 2
      ∧ s.srvPhy.toNat ≤ maxPhy 2 := by decide

/-- One state for each row of 43_hdlc_encode.md R153, in its order. -/
theorem witness_HencErrorsInOrder :
    base.params.payCap < { base with txpLen := 4097 }.txpLen.toNat
      ∧ (base.txpLen.toNat ≤ base.params.payCap ∧ { base with cfg := 6 }.srvAlen = 3)
      ∧ (alenBytes base.srvAlen = some 1 ∧ 0x7F < { base with clientAddr := 0x80 }.clientAddr.toNat)
      ∧ (base.clientAddr.toNat ≤ 0x7F ∧ maxLog 1 < { base with srvLog := 0x80 }.srvLog.toNat)
      ∧ (base.srvLog.toNat ≤ maxLog 1 ∧ maxPhy 1 < { base with srvPhy := 1 }.srvPhy.toNat)
      ∧ base.srvPhy.toNat ≤ maxPhy 1 ∧ { base with txpLen := 4084 }.txpLen.toNat ≤ base.params.payCap
      ∧ 0xFFF < 8 + 1 + (3 + { base with txpLen := 4084 }.txpLen.toNat) := by decide

theorem witness_HencIsPure :
    (∃ t, exec FrameCmd.I.henc base = .next t ∧ t.status = 0)
      ∧ (∃ t, exec FrameCmd.I.henc { base with cfg := 6 } = .next t ∧ t.status = 9)
      ∧ ∃ t, exec FrameCmd.I.henc { base with crcAcc := 5 } = .next t ∧ t.status = 0 :=
  ⟨next_of_seen (f := (·.status)) (by decide +kernel), next_of_seen (f := (·.status)) (by decide +kernel),
    next_of_seen (f := (·.status)) (by decide +kernel)⟩

theorem witness_ControlByteFields : Config.defaultTags.wf = true ∧ FrameCmd.RR ≠ .I := by decide +kernel

theorem witness_ServerAddressForms :
    (0x7F : Byte).toNat ≤ 0x7F ∧ ((0x7F : Word16).toNat ≤ maxLog 1 ∧ (0 : Word16).toNat ≤ maxPhy 1) ∧ ((0x7F : Word16).toNat ≤ maxLog 2 ∧ (0x7F : Word16).toNat ≤ maxPhy 2)
      ∧ (0x3FFF : Word16).toNat ≤ maxLog 4 ∧ (0x3FFF : Word16).toNat ≤ maxPhy 4 := by decide

theorem witness_FcsDependsOnInformationOnly :
    (∃ t, exec FrameCmd.I.henc base = .next t ∧ t.status = 0)
      ∧ (∃ t, exec FrameCmd.UI.henc (load .txp [0xE6, 0xE6, 0x00] base) = .next t ∧ t.status = 0)
      ∧ base.txInfo .I ≠ [] ∧ base.txInfo .I = (load .txp [0xE6, 0xE6, 0x00] base).txInfo .UI :=
  ⟨next_of_seen (f := (·.status)) (by decide +kernel), next_of_seen (f := (·.status)) (by decide +kernel), by decide +kernel⟩

/-- An I frame with the LLC header alone, and a UA frame without information field. -/
theorem witness_HdecAcceptsWellBuiltFrames :
    ((load .rxf frameI base).readBytes .rxf 0 (load .rxf frameI base).rxfLen.toNat
        = frameOf (frameHeader (frameLen 1 3) (serverBytes 1 0 1 ++ [clientByte 0x10]) 0xFE) [0xE6, 0xE7, 0x00]
      ∧ (0xFE : Byte).getLsbD 4 = true ∧ base.params.tags.classify 0xFE = some .I
      ∧ [0xE6, 0xE7, 0x00] = llcHeader (base.cfg.getLsbD 0) ++ [])
    ∧ (let F := [0x7E, 0xA0, 0x08, 0x02, 0x23, 0x21, 0x73, 0xB3, 0x83, 0x7E];
      (load .rxf F base).readBytes .rxf 0 (load .rxf F base).rxfLen.toNat
          = frameOf (frameHeader (frameLen 2 0) (serverBytes 1 0x11 2 ++ [clientByte 0x10]) 0x73) []
        ∧ (0x73 : Byte).getLsbD 4 = true ∧ base.params.tags.classify 0x73 = some .UA)
    ∧ (1 : Word16).toNat ≤ maxLog 1 ∧ (0x11 : Word16).toNat ≤ maxPhy 2 ∧ frameLen 1 3 ≤ 0xFFF := by decide +kernel

/-- `frameI` with one byte replaced. -/
def bent (i : Nat) (b : Byte) : State := load .rxf (frameI.set i b) base

/-- One state for each of the orders 1 to 6 of 44_hdlc_decode.md R184. -/
theorem witness_HdecEnvelopeErrorsInOrder :
    { base with rxfLen := 8 }.rxfLen.toNat < 9
      ∧ (9 ≤ (bent 0 0x7F).rxfLen.toNat ∧ rx (bent 0 0x7F) 0 ≠ 0x7E)
      ∧ (rx (bent 13 0x7F) 0 = 0x7E ∧ rx (bent 13 0x7F) 13 ≠ 0x7E)
      ∧ (rx (bent 1 0xB0) 13 = 0x7E ∧ (rx (bent 1 0xB0) 1).toNat / 16 ≠ 0xA)
      ∧ ((rx (bent 2 0x0D) 1).toNat / 16 = 0xA ∧ (rx (bent 2 0x0D) 1).toNat % 16 * 256 + (rx (bent 2 0x0D) 2).toNat ≠ 14 - 2)
      ∧ ((rx (bent 12 0) 1).toNat % 16 * 256 + (rx (bent 12 0) 2).toNat = 14 - 2
        ∧ crc16 ((bent 12 0).readBytes .rxf 1 (14 - 4)) ≠ rx (bent 12 0) 12 ++ rx (bent 12 0) 11)
      ∧ (bent 12 0).rxfLen.toNat = 14 ∧ { base with rxfLen := 4097 }.rxfLen.toNat ≤ 4097 := by decide +kernel

/-- A received frame. -/
def got (F : List Byte) : State := load .rxf F base

/-- Frames of 95_test_vectors.md section 6.2 with faults in the address field: four bytes without an end, an address
that runs into the FCS, three bytes, a client byte without end mark, no client byte, no control byte. -/
theorem witness_HdecAddressErrorsInOrder :
    (let s := got [0x7E, 0xA0, 0x0B, 0x02, 0x02, 0x02, 0x02, 0x03, 0x21, 0x93, 0xEB, 0x46, 0x7E];
      envelopeOk s ∧ ∀ j, 3 ≤ j → j < min 7 (fcsAt s) → (rx s j).getLsbD 0 = false)
    ∧ (let s := got [0x7E, 0xA0, 0x07, 0x02, 0x02, 0x02, 0x88, 0xD7, 0x7E];
      envelopeOk s ∧ ∀ j, 3 ≤ j → j < min 7 (fcsAt s) → (rx s j).getLsbD 0 = false)
    ∧ (let s := got [0x7E, 0xA0, 0x09, 0x02, 0x02, 0x03, 0x21, 0x93, 0xFE, 0x10, 0x7E];
      envelopeOk s ∧ (rx s 3).getLsbD 0 = false ∧ (rx s 4).getLsbD 0 = false ∧ (rx s 5).getLsbD 0 = true)
    ∧ (let s := got [0x7E, 0xA0, 0x07, 0x03, 0x20, 0x93, 0xD7, 0x18, 0x7E];
      envelopeOk s ∧ serverEnds s 1 ∧ (rx s (3 + 1)).getLsbD 0 = false)
    ∧ (let s := got [0x7E, 0xA0, 0x08, 0x02, 0x02, 0x02, 0x03, 0x88, 0xA0, 0x7E];
      envelopeOk s ∧ serverEnds s 4 ∧ fcsAt s ≤ 3 + 4)
    ∧ (let s := got [0x7E, 0xA0, 0x07, 0x02, 0x03, 0x21, 0xC9, 0xDD, 0x7E];
      envelopeOk s ∧ serverEnds s 2 ∧ 3 + 2 < fcsAt s ∧ (rx s (3 + 2)).getLsbD 0 = true ∧ fcsAt s ≤ 4 + 2) := by
  refine ⟨⟨?_, ?_⟩, ⟨?_, ?_⟩, ⟨?_, ?_⟩, ⟨?_, ⟨?_, ?_, ?_, ?_⟩, ?_⟩, ⟨?_, ⟨?_, ?_, ?_, ?_⟩, ?_⟩, ⟨?_, ⟨?_, ?_, ?_, ?_⟩, ?_⟩⟩
  all_goals first
    | decide +kernel
    | (simp only [envelopeOk]; decide +kernel)
    | (intro j h
       have h3 : j < 4 := by omega
       revert h; revert h3; revert j; decide +kernel)

/-- Frames of 95_test_vectors.md section 6.2 with faults after the address field. -/
theorem witness_HdecLateErrorsInOrder :
    (let s := got [0x7E, 0xA0, 0x08, 0x03, 0x21, 0x93, 0xAA, 0x22, 0x68, 0x7E];
      envelopeOk s ∧ serverEnds s 1 ∧ (rx s 4).getLsbD 0 = true ∧ 4 + 1 < fcsAt s ∧ fcsAt s - 6 = 1)
    ∧ (let s := got [0x7E, 0xA0, 0x09, 0x03, 0x21, 0x93, 0xAA, 0xBB, 0x73, 0xFD, 0x7E];
      envelopeOk s ∧ serverEnds s 1 ∧ fcsAt s - 6 = 2)
    ∧ (let s := got [0x7E, 0xA0, 0x0C, 0x03, 0x21, 0x93, 0x00, 0x00, 0x81, 0x80, 0x00, 0x01, 0xCA, 0x7E];
      envelopeOk s ∧ serverEnds s 1 ∧ 3 ≤ fcsAt s - 6 ∧ crc16 (s.readBytes .rxf 1 5) ≠ rx s 7 ++ rx s 6)
    ∧ (let s := got [0x7E, 0xA0, 0x0D, 0x03, 0x21, 0x20, 0xB1, 0x5A, 0xE6, 0xE7, 0x00, 0x01, 0xB2, 0x9C, 0x7E];
      envelopeOk s ∧ serverEnds s 1 ∧ 3 ≤ fcsAt s - 6 ∧ crc16 (s.readBytes .rxf 1 5) = rx s 7 ++ rx s 6 ∧ (rx s 5).getLsbD 4 = false)
    ∧ (let s := got [0x7E, 0xA0, 0x07, 0x03, 0x21, 0x1B, 0x4F, 0x09, 0x7E];
      envelopeOk s ∧ serverEnds s 1 ∧ fcsAt s - 6 = 0 ∧ (rx s 5).getLsbD 4 = true ∧ s.params.tags.classify (rx s 5) = none)
    ∧ (let s := got [0x7E, 0xA0, 0x07, 0x03, 0x21, 0x13, 0x07, 0x85, 0x7E];
      envelopeOk s ∧ serverEnds s 1 ∧ fcsAt s - 6 = 0 ∧ s.params.tags.classify (rx s 5) = some .UI
        ∧ (s.readBytes .rxf 8 0).take 3 ≠ llcHeader (s.cfg.getLsbD 0)) := by
  refine ⟨⟨?_, ⟨?_, ?_, ?_, ?_⟩, ?_⟩, ⟨?_, ⟨?_, ?_, ?_, ?_⟩, ?_⟩, ⟨?_, ⟨?_, ?_, ?_, ?_⟩, ?_⟩, ⟨?_, ⟨?_, ?_, ?_, ?_⟩, ?_⟩,
    ⟨?_, ⟨?_, ?_, ?_, ?_⟩, ?_⟩, ⟨?_, ⟨?_, ?_, ?_, ?_⟩, ?_⟩⟩
  all_goals first
    | decide +kernel
    | (simp only [envelopeOk]; decide +kernel)
    | (intro j h; omega)

/-- A UA and an I frame whose payload of one byte does not fit a RXP of no byte: the statement is about every PAY_CAP. -/
theorem witness_HdecLateErrorsInOrder_capacity :
    FrameCmd.UA ≠ .I ∧ FrameCmd.UA ≠ .UI ∧ (caps 0 255 255 base).params.payCap < [(0x55 : Byte)].length
      ∧ (caps 0 255 255 base).params.payCap + 3 < (llcHeader false ++ [0x55]).length
      ∧ seen (exec .hdec (caps 0 255 255 (got (frameOf (frameHeader (frameLen 1 1) (serverBytes 1 0 1 ++ [clientByte 0x10]) 0x73)
          [0x55])))) report = some (10, 6, 0)
      ∧ seen (exec .hdec (caps 0 255 255 (got (frameOf (frameHeader (frameLen 1 4) (serverBytes 1 0 1 ++ [clientByte 0x10]) 0x30)
          (llcHeader false ++ [0x55]))))) report = some (10, 6, 0) := by
  decide +kernel

theorem witness_HdecFailureClearsTheResults :
    4097 < { base with rxfLen := 4098 }.rxfLen.toNat ∧ base.rxfLen.toNat ≤ 4097
      ∧ ∃ t, exec .hdec base = .next t ∧ t.status = 1 :=
  ⟨by decide, by decide, next_of_seen (f := (·.status)) (by decide +kernel)⟩

theorem witness_LoopbackRoundTrip :
    (base.params.wf = true ∧ ∃ t, exec FrameCmd.I.henc { base with cfg := 1 } = .next t ∧ t.status = 0)
      ∧ { base with cfg := 1 }.cfg.getLsbD 0 = true
      ∧ (∃ t, exec FrameCmd.UI.henc (load .txp [0xE6, 0xE7, 0x00, 0xAA] base) = .next t ∧ t.status = 0)
      ∧ ((load .txp [0xE6, 0xE7, 0x00, 0xAA] base).readBytes .txp 0 4).take 3 = llcHeader (base.cfg.getLsbD 0) :=
  ⟨⟨by decide +kernel, next_of_seen (f := (·.status)) (by decide +kernel)⟩, by decide,
    next_of_seen (f := (·.status)) (by decide +kernel), by decide +kernel⟩

theorem witness_LoopbackOfIFrameNeedsTheLlcSelection :
    base.params.wf = true ∧ (∃ t, exec .hencI base = .next t ∧ t.status = 0) ∧ base.cfg.getLsbD 0 = false
      ∧ alenBytes base.srvAlen = some 1 :=
  ⟨by decide +kernel, next_of_seen (f := (·.status)) (by decide +kernel), by decide, by decide⟩

/-- An accepted frame, and a bit inverted in each of the places the statement tells apart: the two flags, both halves
of the format byte, the length byte, the first and the last byte the FCS covers or fills. -/
theorem witness_HdecReportsEverySingleBitFlip :
    (∃ t, exec .hdec (got frameI) = .next t ∧ t.status = 0) ∧ 13 < (got frameI).rxfLen.toNat ∧ 7 < 8
      ∧ ∀ p ∈ [(0, 0), (1, 3), (1, 4), (2, 0), (3, 0), (12, 7), (13, 7)],
          (got (flipBit frameI p.1 p.2)).rxfLen = (got frameI).rxfLen
            ∧ (got (flipBit frameI p.1 p.2)).readBytes .rxf 0 (got frameI).rxfLen.toNat
              = flipBit ((got frameI).readBytes .rxf 0 (got frameI).rxfLen.toNat) p.1 p.2 :=
  ⟨next_of_seen (f := (·.status)) (by decide +kernel), by decide +kernel, by decide, by decide +kernel⟩

/-- The three ends of `append`: the last byte fits, one byte too many, a length above the capacity. -/
theorem witness_appendsOrRaises :
    base.params.wf = true ∧ { base with tlbLen := 4095 }.tlbLen.toNat + 1 ≤ base.params.tlbCap
      ∧ { base with tlbLen := 4096 }.tlbLen.toNat ≤ base.params.tlbCap
      ∧ base.params.tlbCap < { base with tlbLen := 4096 }.tlbLen.toNat + 1
      ∧ base.params.tlbCap < { base with tlbLen := 4097 }.tlbLen.toNat := by decide +kernel

theorem witness_TlvGetbCompletes :
    (load .tlb [0xC4] base).tlbLen.toNat ≤ base.params.tlbCap ∧ (load .tlb [0xC4] base).tlbCur < (load .tlb [0xC4] base).tlbLen
      ∧ base.params.tlbCap < { base with tlbLen := 4097 }.tlbLen.toNat ∧ base.tlbLen ≤ base.tlbCur := by decide +kernel

/-- The first byte at the values where the clauses meet: 80, 81 and 84 with and without their bytes, 85. -/
theorem witness_TlvRsizeCompletes :
    base.tlbLen.toNat ≤ 0 ∧ 0 < (load .tlb [0x80] base).tlbLen.toNat ∧ ((load .tlb [0x80] base).byteAt .tlb 0).toNat ≤ 0x80
      ∧ 0x85 ≤ ((load .tlb [0x85] base).byteAt .tlb 0).toNat
      ∧ (((load .tlb [0x81] base).byteAt .tlb 0).toNat = 0x80 + 1 ∧ (load .tlb [0x81] base).tlbLen.toNat < 0 + 1 + 1)
      ∧ (((load .tlb [0x84, 0, 0, 0, 5] base).byteAt .tlb 0).toNat = 0x80 + 4
        ∧ 0 + 1 + 4 ≤ (load .tlb [0x84, 0, 0, 0, 5] base).tlbLen.toNat)
      ∧ base.params.tlbCap < { base with tlbLen := 4097 }.tlbLen.toNat := by decide +kernel

theorem witness_LengthPrefixForms :
    [0x80, 0x81, 0xFF, 0x100, 0xFFFF, 0x10000, 0xFFFFFF, 0x1000000, 0xFFFFFFFF].all (fun n => n < 2 ^ 32) = true := by decide

theorem witness_LengthPrefixRoundTrip :
    let s := { base with val := 0xFFFFFFFF, tlbLen := 4091, tlbCur := 4091 };
    s.params.wf = true ∧ s.tlbCur = s.tlbLen ∧ s.tlbLen.toNat + (wsize (s.val.toNat % 2 ^ 32)).length ≤ s.params.tlbCap := by
  decide +kernel

theorem witness_EncAppendsOneWholeValue :
    base.params.wf = true ∧ encOk .u16 base ∧ encOk .ostr { base with strLen := 4096 }
      ∧ encOk .bstr { base with strLen := 2, val := 0xFFFFFFFF00000009 } ∧ encOk .bstr { base with strLen := 2, val := 16 } := by
  simp only [encOk]; decide +kernel

theorem witness_EncOperandErrors :
    base.params.strCap < { base with strLen := 4097 }.strLen.toNat ∧ { base with strLen := 1, val := 9 }.strLen.toNat ≤ base.params.strCap
      ∧ ({ base with strLen := 1, val := 9 }.val.toNat % 2 ^ 32 + 7) / 8 ≠ { base with strLen := 1, val := 9 }.strLen.toNat := by decide

theorem witness_EncodedLengths : base.params.wf = true := by decide +kernel

theorem witness_DecFixedWidthValues :
    (let s := load .tlb [0x05, 0xFF, 0xFE, 0x1D, 0xC0] base;
      fixedWidth .i32 = some 4 ∧ tagAtCursor .i32 s ∧ s.tlbCur.toNat + 1 + 4 ≤ s.tlbLen.toNat)
    ∧ (let s := load .tlb [0x03, 0xFF] base;
      tagAtCursor .bool s ∧ s.tlbCur.toNat + 2 ≤ s.tlbLen.toNat) := by
  simp only [tagAtCursor]; decide +kernel

theorem witness_DecCountsAndStrings :
    (let s := load .tlb [0x01, 0x82, 0x01, 0x2C] base;
      s.rsizeAt (s.tlbCur.toNat + 1) = .ok (300, 3) ∧ tagAtCursor .arr s)
    ∧ (let s := load .tlb [0x04, 0x0C, 0xAB, 0xC0] base;
      s.rsizeAt (s.tlbCur.toNat + 1) = .ok (12, 1) ∧ tagAtCursor .bstr s
        ∧ s.tlbCur.toNat + 1 + 1 + contentBytes .bstr 12 ≤ s.tlbLen.toNat ∧ contentBytes .bstr 12 ≤ s.params.strCap) := by
  simp only [tagAtCursor]; decide +kernel

/-- One state for each row of 47_tlv_decode.md R258, in its order. -/
theorem witness_DecErrorsInOrder :
    base.params.tlbCap < { base with tlbLen := 4097 }.tlbLen.toNat ∧ base.tlbLen.toNat ≤ base.tlbCur.toNat
      ∧ (load .tlb [0x11] base).byteAt .tlb 0 ≠ tagNumber .u16
      ∧ (tagAtCursor .arr (load .tlb [0x01] base) ∧ (load .tlb [0x01] base).tlbLen.toNat ≤ 0 + 1)
      ∧ (tagAtCursor .arr (load .tlb [0x01, 0x85] base) ∧ 0x85 ≤ ((load .tlb [0x01, 0x85] base).byteAt .tlb 1).toNat)
      ∧ (tagAtCursor .arr (load .tlb [0x01, 0x84, 0, 0, 0] base) ∧ (load .tlb [0x01, 0x84, 0, 0, 0] base).tlbLen.toNat < 0 + 2 + (0x84 - 0x80))
      ∧ (tagAtCursor .u16 (load .tlb [0x12, 0x12] base) ∧ (load .tlb [0x12, 0x12] base).tlbLen.toNat < 0 + 1 + 2)
      ∧ (tagAtCursor .ostr (load .tlb [0x09, 0x02, 0xAA] base) ∧ (load .tlb [0x09, 0x02, 0xAA] base).rsizeAt 1 = .ok (2, 1)
        ∧ (load .tlb [0x09, 0x02, 0xAA] base).tlbLen.toNat < 0 + 1 + 1 + contentBytes .ostr 2)
      ∧ (let s := caps 4096 4096 255 { load .tlb [0x09, 0x82, 0x01, 0x00] base with tlbLen := 260 };
        tagAtCursor .ostr s ∧ s.rsizeAt 1 = .ok (256, 3) ∧ 0 + 1 + 3 + contentBytes .ostr 256 ≤ s.tlbLen.toNat
          ∧ s.params.strCap < contentBytes .ostr 256) := by
  simp only [tagAtCursor]; decide +kernel

theorem witness_EncodeThenDecode :
    base.params.wf = true ∧ base.tlbCur = base.tlbLen
      ∧ (∃ u, exec TlvType.i16.enc { base with val := 0x12345 } = .next u ∧ u.status = 0)
      ∧ ∃ u, exec TlvType.bstr.enc (load .str [0xAB, 0xC0] { base with val := 12 }) = .next u ∧ u.status = 0 :=
  ⟨by decide +kernel, by decide, next_of_seen (f := (·.status)) (by decide +kernel), next_of_seen (f := (·.status)) (by decide +kernel)⟩

/-- What TLV.DEC.U16 leaves of `12 12 34`, for the command that follows it. -/
theorem witness_DecodeThenEncode :
    base.params.wf = true
      ∧ ∃ u, exec TlvType.u16.dec (load .tlb [0x12, 0x12, 0x34] base) = .next u ∧ u.status = 0
        ∧ minimalAt .u16 (load .tlb [0x12, 0x12, 0x34] base) u ∧ ∃ v, exec TlvType.u16.enc u = .next v ∧ v.status = 0 :=
  ⟨by decide +kernel, _, rfl, rfl, trivial, next_of_seen (f := (·.status)) (by decide +kernel)⟩

/-- A state with a frame, an open TLV buffer and a command to come meets the invariant of every step. -/
theorem witness_StepKeepsTheInvariant :
    (queued (.wr .cmd 0x0020) (load .tlb [1, 2, 3] { base with cfg := 5, tlbCur := 1 })).Inv
      ∧ ∃ t, step (queued (.wr .cmd 0x0020) (load .tlb [1, 2, 3] { base with cfg := 5, tlbCur := 1 })) = .next t ∧ t.txfLen = 17 :=
  ⟨⟨by decide +kernel, by decide, by decide, by decide, by decide, by decide, by decide, .inl (by decide),
      by intro b; cases b <;> decide +kernel⟩, next_of_seen (f := (·.txfLen)) (by decide +kernel)⟩

theorem witness_CommandsKeepTheCursorInOrder :
    base.params.wf = true ∧ (load .tlb [0x12, 0x12, 0x34] base).cursorOk
      ∧ ∃ t, exec .tlvDecU16 (load .tlb [0x12, 0x12, 0x34] base) = .next t ∧ t.tlbCur = 3 :=
  ⟨by decide +kernel, by decide +kernel, next_of_seen (f := (·.tlbCur)) (by decide +kernel)⟩

/-- A decoder's answer that is a frame. -/
theorem ok_of_isSome {x : Except CmdError ParsedFrame} (h : x.toOption.isSome = true) : ∃ r, x = .ok r := by
  cases x with
  | error e => simp [Except.toOption] at h
  | ok r => exact ⟨r, rfl⟩

/-- TXF holds a frame HDEC accepts, or the UI frame it refuses for its missing LLC header. -/
theorem witness_StepKeepsAnAcceptableFrameInTxf :
    base.params.wf = true ∧ (load .txf [0x7E, 0xA0, 0x07, 0x03, 0x21, 0x93, 0x0F, 0x01, 0x7E] base).txfOk
      ∧ (load .txf [0x7E, 0xA0, 0x07, 0x03, 0x21, 0x13, 0x07, 0x85, 0x7E] base).txfOk
      ∧ ∃ t, step (queued (.wr .cmd 0x0020) (load .txf [0x7E, 0xA0, 0x07, 0x03, 0x21, 0x93, 0x0F, 0x01, 0x7E] base)) = .next t
          ∧ t.txfLen = 14 :=
  ⟨by decide +kernel, .inr (.inl ⟨false, ok_of_isSome (by decide +kernel)⟩),
    .inr (.inr ⟨[0x03], 0x10, 5, 6, by decide +kernel, by decide +kernel, by intro sel; cases sel <;> decide +kernel⟩),
    next_of_seen (f := (·.txfLen)) (by decide +kernel)⟩

theorem witness_FailingCommandsArePrecise :
    (∃ t, exec .tlvGetb base = .next t ∧ t.status = 6) ∧ (∃ t, exec .hdec base = .next t ∧ t.status = 1)
      ∧ (∃ t, exec .hdec { base with rxfLen := 4098 } = .next t ∧ t.status = 9)
      ∧ (queued (.wr .cmd 0x0100) base).hostQueue = .wr .cmd 0x0100 :: []
      ∧ ∃ t, step (queued (.wr .cmd 0x0100) base) = .next t ∧ t.cmd = 0x0100 :=
  ⟨next_of_seen (f := (·.status)) (by decide +kernel), next_of_seen (f := (·.status)) (by decide +kernel),
    next_of_seen (f := (·.status)) (by decide +kernel), by decide, next_of_seen (f := (·.cmd)) (by decide +kernel)⟩

theorem witness_ErrstickyRecordsEveryError :
    (∃ t, step (queued (.wr .cmd 0x0045) { base with errsticky := 8 }) = .next t ∧ t.errsticky = 0x48)
      ∧ (∃ t, step (queued (.wr .cmd 0x0002) { base with errsticky := 8 }) = .next t ∧ t.errsticky = 0)
      ∧ (∃ t, step (queued .reset { base with errsticky := 8 }) = .next t ∧ t.errsticky = 0)
      ∧ (∃ t, step (queued (.wr .val 1) { base with errsticky := 8 }) = .next t ∧ t.errsticky = 8)
      ∧ (∀ v, (queued (.wr .val 1) base).hostQueue.head? ≠ some (.wr .cmd v))
      ∧ (queued (.wr .val 1) base).hostQueue.head? ≠ some .reset ∧ { base with errsticky := 0x07FE }.errsticky &&& 0xF801 = 0 :=
  ⟨next_of_seen (f := (·.errsticky)) (by decide +kernel), next_of_seen (f := (·.errsticky)) (by decide +kernel),
    next_of_seen (f := (·.errsticky)) (by decide +kernel), next_of_seen (f := (·.errsticky)) (by decide +kernel),
    by intro v; simp [queued], by decide, by decide⟩

theorem witness_CommandsReachOnlyTheirBuffers :
    BufName.rxf ∉ writesBuf .hdec ∧ BufName.rxp ∉ readsBuf .hdec ∧ BufName.tlb ∉ writesBuf .tlvClr
      ∧ ∃ t, exec .tlvClr (load .tlb [1, 2, 3] base) = .next t ∧ t.len .tlb = 0 :=
  ⟨by decide, by decide, by decide, next_of_seen (f := (·.len .tlb)) (by decide +kernel)⟩

/-- Another TLB with the same one byte below TLB_LEN and other bytes above it. -/
theorem witness_NoCommandReadsAnUnspecifiedByte :
    base.params.wf = true
      ∧ (∀ k, k < ((load .tlb [0xC4] base).len .tlb).toNat →
          Buf.byteAt ⟨[(0, 0xC4), (1, 0x55)], 3⟩ .tlb k = (load .tlb [0xC4] base).byteAt .tlb k)
      ∧ ∃ t, exec .tlvGetb (load .tlb [0xC4] base) = .next t ∧ t.val = 0xC4 :=
  ⟨by decide +kernel, by decide +kernel, next_of_seen (f := (·.val)) (by decide +kernel)⟩

theorem witness_CrcUnitAndFramesDoNotInterfere :
    isFrameCommand .hencI = true ∧ isFrameCommand .hdec = true ∧ ∃ t, exec .hencI { base with crcAcc := 5 } = .next t ∧ t.crcAcc = 5 :=
  ⟨rfl, rfl, next_of_seen (f := (·.crcAcc)) (by decide +kernel)⟩

end Sys2Proof.Tests
end

section
/-!
The register port: what the host's accesses, and a read after a write, make of the state (10_state.md R33, R42 to
R45), and the statement about host writes of registers.
-/

namespace Sys2Proof.Machine

/-! ## One step by the head of the queue -/

theorem step_nil {s : State} (h : s.hostQueue = []) : step s = .next s := by
  rw [step, h]

theorem step_cons {s : State} {a : HostAction} {rest : List HostAction} (h : s.hostQueue = a :: rest) :
    step s = perform a { s with hostQueue := rest } := by
  rw [step, h]

theorem perform_wr_cmd (s : State) (v : Word64) : perform (.wr .cmd v) s = runCommand (v.setWidth 16) s := rfl

/-- A host action that writes no command word is an access (70_reset_and_hazards.md R318). -/
theorem perform_eq_hostAccess {a : HostAction} (h : ∀ v, a ≠ .wr .cmd v) (s : State) :
    perform a s = s.hostAccess a := by
  cases a with
  | wr r v =>
    cases r with
    | cmd => exact absurd rfl (h v)
    | _ => rfl
  | _ => rfl

/-! ## The length registers -/

/-- The register that `State.len` reads for a buffer (10_state.md R42). -/
def lenReg : BufName → Reg
  | .txf => .txfLen | .rxf => .rxfLen | .txp => .txpLen | .rxp => .rxpLen | .tlb => .tlbLen | .str => .strLen

theorem State.readReg_lenReg (s : State) (b : BufName) : s.readReg (lenReg b) = (s.len b).setWidth 64 := by
  cases b <;> rfl

theorem State.readReg_setLen_same (s : State) (b : BufName) (v : Word16) :
    (s.setLen b v).readReg (lenReg b) = v.setWidth 64 := by
  rw [State.readReg_lenReg, State.len_setLen]

theorem State.readReg_lenReg_setLen_ne (s : State) {b b' : BufName} (h : lenReg b' ≠ lenReg b) (v : Word16) :
    (s.setLen b v).readReg (lenReg b') = s.readReg (lenReg b') := by
  have hb : b' ≠ b := fun e => h (congrArg lenReg e)
  rw [State.readReg_lenReg, State.readReg_lenReg, State.len_setLen_ne s hb]

/-- Writing one length register leaves what every other register reads. -/
theorem State.readReg_setLen_ne (s : State) {b : BufName} {r : Reg} (h : r ≠ lenReg b) (v : Word16) :
    (s.setLen b v).readReg r = s.readReg r := by
  cases r with
  | txfLen => exact s.readReg_lenReg_setLen_ne (b' := .txf) h v
  | rxfLen => exact s.readReg_lenReg_setLen_ne (b' := .rxf) h v
  | txpLen => exact s.readReg_lenReg_setLen_ne (b' := .txp) h v
  | rxpLen => exact s.readReg_lenReg_setLen_ne (b' := .rxp) h v
  | tlbLen => exact s.readReg_lenReg_setLen_ne (b' := .tlb) h v
  | strLen => exact s.readReg_lenReg_setLen_ne (b' := .str) h v
  | _ => simp [State.readReg]

/-- A buffer whose length register is not lowered keeps its bytes when a length register is written. -/
theorem State.buf_setLen_of_not_lowered {s : State} {b b' : BufName} {v : Word16}
    (h : ¬ (s.setLen b v).len b' < s.len b') : (s.setLen b v).buf b' = s.buf b' := by
  by_cases hb : b' = b
  · subst hb
    rw [State.len_setLen] at h
    rw [State.buf_setLen, if_neg h]
  · exact State.buf_setLen_ne s hb v

/-! ## What a register reads -/

/-- CRC_OUT is a view of CRC_ACC (10_state.md R33). -/
theorem State.readReg_crcOut (s : State) : s.readReg .crcOut = s.readReg .crcAcc ^^^ 0xFFFF := by
  simp [State.readReg, BitVec.setWidth_xor]

@[simp] theorem State.readReg_with_hostQueue (s : State) (q : List HostAction) (r : Reg) :
    { s with hostQueue := q }.readReg r = s.readReg r := rfl

/-- The low `w` bits of a bus value, zero-extended to the bus. -/
theorem setWidth_setWidth_eq_ofNat (v : Word64) (w : Nat) :
    (v.setWidth w).setWidth 64 = BitVec.ofNat 64 (v.toNat % 2 ^ w) :=
  BitVec.eq_of_toNat_eq (by simp)

/-- The reserved bits 7:3 of CFG read as zero (10_state.md R26). -/
theorem setWidth_and_seven (v : Word64) : v.setWidth 8 &&& 0x07#8 = (v.setWidth 3).setWidth 8 := by
  apply BitVec.eq_of_toNat_eq
  have hmask : v.toNat % 256 &&& 7 = v.toNat % 256 % 8 := Nat.and_two_pow_sub_one_eq_mod _ 3
  simp only [BitVec.toNat_and, BitVec.toNat_setWidth, BitVec.toNat_ofNat, Nat.reducePow, Nat.reduceMod, hmask]
  omega

/-! ## writeReg: one register -/

@[simp] theorem State.writeReg_errsticky (s : State) (r : Reg) (v : Word64) :
    (s.writeReg r v).errsticky = s.errsticky := by
  cases r <;> simp [State.writeReg]
@[simp] theorem State.writeReg_params (s : State) (r : Reg) (v : Word64) : (s.writeReg r v).params = s.params := by
  cases r <;> simp [State.writeReg]
@[simp] theorem State.writeReg_hostQueue (s : State) (r : Reg) (v : Word64) :
    (s.writeReg r v).hostQueue = s.hostQueue := by
  cases r <;> simp [State.writeReg]
@[simp] theorem State.writeReg_busRead (s : State) (r : Reg) (v : Word64) : (s.writeReg r v).busRead = s.busRead := by
  cases r <;> simp [State.writeReg]
@[simp] theorem State.writeReg_hostReads (s : State) (r : Reg) (v : Word64) :
    (s.writeReg r v).hostReads = s.hostReads := by
  cases r <;> simp [State.writeReg]

/-- A write of a read-only register is ignored (10_state.md R44). -/
theorem State.writeReg_of_readOnly {r : Reg} (h : regAccess r = .RO) (s : State) (v : Word64) :
    s.writeReg r v = s := by
  cases r <;> simp_all [regAccess, State.writeReg]

/-- A register the host may write reads back the low bits that fit (10_state.md R45), of CFG bits 2:0 (R26). -/
theorem State.readReg_writeReg_same {r : Reg} (h : regAccess r = .RW) (s : State) (v : Word64) :
    (s.writeReg r v).readReg r = BitVec.ofNat 64 (v.toNat % 2 ^ (if r = .cfg then 3 else regWidth r)) := by
  cases r with
  | cfg =>
    calc (s.writeReg .cfg v).readReg .cfg = (v.setWidth 8 &&& 0x07#8).setWidth 64 := rfl
      _ = (v.setWidth 3).setWidth 64 := by rw [setWidth_and_seven, BitVec.setWidth_setWidth (by omega)]
      _ = _ := setWidth_setWidth_eq_ofNat v 3
  | val =>
    calc (s.writeReg .val v).readReg .val = (v.setWidth 64).setWidth 64 := by simp [State.writeReg, State.readReg]
      _ = _ := setWidth_setWidth_eq_ofNat v 64
  | strLen => exact (s.readReg_setLen_same .str _).trans (setWidth_setWidth_eq_ofNat v 16)
  | txpLen => exact (s.readReg_setLen_same .txp _).trans (setWidth_setWidth_eq_ofNat v 16)
  | rxfLen => exact (s.readReg_setLen_same .rxf _).trans (setWidth_setWidth_eq_ofNat v 16)
  | tlbLen => exact (s.readReg_setLen_same .tlb _).trans (setWidth_setWidth_eq_ofNat v 16)
  | clientAddr => exact setWidth_setWidth_eq_ofNat v 8
  | sss | rrr => exact setWidth_setWidth_eq_ofNat v 3
  | srvLog | srvPhy | crcAcc | tlbCur => exact setWidth_setWidth_eq_ofNat v 16
  | _ => cases h

/-- A write of one register leaves what every other reads, but for CRC_OUT after a write of CRC_ACC. -/
theorem State.readReg_writeReg_ne {r r' : Reg} (h : r' ≠ r) (hcrc : r = .crcAcc → r' ≠ .crcOut) (s : State)
    (v : Word64) : (s.writeReg r v).readReg r' = s.readReg r' := by
  cases r with
  | strLen => exact s.readReg_setLen_ne (b := .str) h _
  | txpLen => exact s.readReg_setLen_ne (b := .txp) h _
  | rxfLen => exact s.readReg_setLen_ne (b := .rxf) h _
  | tlbLen => exact s.readReg_setLen_ne (b := .tlb) h _
  | crcAcc =>
    have hout : r' ≠ .crcOut := hcrc rfl
    cases r' <;> first | rfl | contradiction
  | cmd | cfg | clientAddr | srvLog | srvPhy | sss | rrr | val | tlbCur =>
    cases r' <;> first | rfl | contradiction
  | _ => rw [State.writeReg_of_readOnly rfl]

/-- A register write changes the bytes of a buffer only where it lowers that buffer's length register. -/
theorem State.buf_writeReg {s : State} {r : Reg} {v : Word64} {b : BufName}
    (h : ¬ (s.writeReg r v).len b < s.len b) : (s.writeReg r v).buf b = s.buf b := by
  cases r with
  | strLen | txpLen | rxfLen | tlbLen => exact State.buf_setLen_of_not_lowered h
  | _ => rfl

/-- The host's write of a register other than CMD, as a step. -/
theorem step_wr {s : State} {r : Reg} {v : Word64} {rest : List HostAction} (hq : s.hostQueue = .wr r v :: rest)
    (hr : r ≠ .cmd) : step s = .next ({ s with hostQueue := rest }.writeReg r v) := by
  rw [step_cons hq, perform_eq_hostAccess (by rintro w ⟨⟩; exact hr rfl)]
  rfl

theorem regAccess_eq_readOnly {r : Reg} (hr : r ≠ .cmd) (hw : regAccess r ≠ .RW) : regAccess r = .RO := by
  cases r <;> simp_all [regAccess]

/-- Settles O5: the step is `writeReg`, and each clause is one of its rules above. -/
theorem hostWritesRegisters : Obligations.HostWritesRegisters := by
  intro s r v rest hq hr
  refine ⟨_, step_wr hq hr, by simp, fun hro => ?_, fun hrw => ?_, fun r' hne hcrc => ?_, ?_, fun b hb => ?_,
    by simp, by simp, by simp⟩
  · exact State.writeReg_of_readOnly (regAccess_eq_readOnly hr hro) _ v
  · exact State.readReg_writeReg_same hrw _ v
  · rw [State.readReg_writeReg_ne hne hcrc, State.readReg_with_hostQueue]
  · exact State.readReg_crcOut _
  · exact State.buf_writeReg (s := { s with hostQueue := rest }) hb

end Sys2Proof.Machine
end

section
/-!
The decoder: a word that decodes is the encoding of the command it decodes to (30_encoding.md R80, R81).
-/

namespace Sys2Proof

/-- A command word is its two fields (30_encoding.md R80). -/
theorem word_opOf_argOf (w : Word16) : word (opOf w) (argOf w) = w :=
  calc word (opOf w) (argOf w) = w.extractLsb' 0 16 := BitVec.extractLsb'_append_extractLsb'_eq_extractLsb' rfl
    _ = w := BitVec.extractLsb'_eq_self

theorem word_argOf_of_opOf {w : Word16} {op : Byte} (h : opOf w = op) : word op (argOf w) = w := by
  rw [← h, word_opOf_argOf]

theorem plain_eq_ok {arg : Byte} {i j : Instr} : plain arg i = .ok j ↔ arg = 0 ∧ i = j := by
  unfold plain
  split <;> simp_all

theorem FrameCmd.index_of_ofIndex? {b : Byte} {c : FrameCmd} (h : FrameCmd.ofIndex? b = some c) : c.index = b := by
  unfold FrameCmd.ofIndex? at h
  split at h <;> cases h <;> rfl

theorem TlvType.tag_of_ofTag? {b : Byte} {t : TlvType} (h : TlvType.ofTag? b = some t) : t.tag = b := by
  unfold TlvType.ofTag? at h
  split at h <;> cases h <;> rfl

theorem encode_henc (c : FrameCmd) : encode c.henc = word 0x20 c.index := by
  cases c <;> rfl

theorem encode_enc (t : TlvType) : encode t.enc = word 0x40 t.tag := by
  cases t <;> rfl

theorem encode_dec (t : TlvType) : encode t.dec = word 0x41 t.tag := by
  cases t <;> rfl

/-- A word of a row marked "ARG = 0" encodes the row's command (30_encoding.md R81, R83 b). -/
theorem encode_of_plain {w : Word16} {op : Byte} {i j : Instr} (hop : opOf w = op)
    (h : plain (argOf w) i = .ok j) (hi : encode i = word op 0) : encode j = w := by
  obtain ⟨harg, rfl⟩ := plain_eq_ok.mp h
  rw [hi, ← harg, word_argOf_of_opOf hop]

/-- A word that decodes is the encoding of its command. -/
theorem encode_of_decode {w : Word16} {i : Instr} (h : decode w = .ok i) : encode i = w := by
  unfold decode at h
  split at h
  case h_5 hop | h_19 hop =>
    cases h
    exact word_argOf_of_opOf hop
  case h_10 hop =>
    split at h
    · cases h
      rw [encode_henc, FrameCmd.index_of_ofIndex? ‹_›]
      exact word_argOf_of_opOf hop
    · cases h
  case h_15 hop =>
    split at h
    · cases h
      rw [encode_enc, TlvType.tag_of_ofTag? ‹_›]
      exact word_argOf_of_opOf hop
    · cases h
  case h_16 hop =>
    split at h
    · cases h
      rw [encode_dec, TlvType.tag_of_ofTag? ‹_›]
      exact word_argOf_of_opOf hop
    · cases h
  case h_23 => cases h
  all_goals exact encode_of_plain ‹_› h rfl

end Sys2Proof
end

section
/-!
ERRSTICKY (10_state.md R25): what a command's own writes, its end, the prologue and the host's other accesses make
of the register, and the statement about it.
-/

namespace Sys2Proof.Machine

/-! ## How a command's end is recorded -/

/-- The command that led from `s` to `t` ended with code 0 and ERRSTICKY is unchanged, or with an error and the
bit of its code is set besides (10_state.md R23, R25). -/
def recordsEnd (s t : State) : Prop :=
  (t.status = 0 ∧ t.errsticky = s.errsticky)
    ∨ ∃ e : CmdError, t.status = e.statusWord ∧ t.errsticky = s.errsticky ||| e.stickyWord

theorem recordsEnd_done {s u : State} (h : u.errsticky = s.errsticky) : recordsEnd s u.done := .inl ⟨rfl, h⟩

theorem recordsEnd_raise {s u : State} (e : CmdError) (h : u.errsticky = s.errsticky) : recordsEnd s (u.raise e) :=
  .inr ⟨e, rfl, by rw [State.raise_errsticky, h]⟩

/-- STATUS of an error is its code, which is not 0 (10_state.md R23). -/
theorem CmdError.statusWord_ne_zero (e : CmdError) : e.statusWord ≠ 0 := by
  obtain ⟨code, sub, off⟩ := e
  cases code <;> simp [CmdError.statusWord, ErrCode.num]

theorem CmdError.toNat_statusWord (e : CmdError) : e.statusWord.toNat = e.code.num := by
  obtain ⟨code, sub, off⟩ := e
  cases code <;> rfl

/-- No error has code 0 or 11 to 15 (60_exceptions.md R270). -/
theorem CmdError.stickyWord_and_reserved (e : CmdError) : e.stickyWord &&& 0xF801 = 0 := by
  obtain ⟨code, sub, off⟩ := e
  cases code <;> simp [CmdError.stickyWord, ErrCode.num]

/-- ERRSTICKY in terms of the code that STATUS holds after the command. -/
theorem recordsEnd.errsticky {s t : State} (h : recordsEnd s t) :
    t.errsticky = s.errsticky ||| (if t.status = 0 then 0 else 1#16 <<< t.status.toNat) := by
  obtain ⟨hst, hsticky⟩ | ⟨e, hst, hsticky⟩ := h
  · rw [if_pos hst, hsticky]; exact (BitVec.or_zero).symm
  · rw [hst, if_neg e.statusWord_ne_zero, e.toNat_statusWord, hsticky, CmdError.stickyWord]

theorem recordsEnd.keeps_reserved {s t : State} (h : recordsEnd s t) (hs : s.errsticky &&& 0xF801 = 0) :
    t.errsticky &&& 0xF801 = 0 := by
  obtain ⟨-, hsticky⟩ | ⟨e, -, hsticky⟩ := h
  · rw [hsticky, hs]
  · rw [hsticky, BitVec.and_or_distrib_right, hs, e.stickyWord_and_reserved]; rfl

/-! ## The operations of the commands leave ERRSTICKY -/

/-- The writes of a command whose checks pass leave ERRSTICKY as it is in `s`. -/
def leavesSticky (s : State) (r : Except CmdError State) : Prop := ∀ u, r = .ok u → u.errsticky = s.errsticky

theorem leavesSticky_ok {s u : State} (h : u.errsticky = s.errsticky) : leavesSticky s (.ok u) := by
  rintro _ ⟨⟩; exact h

/-- A part of a command that gives no state may come before. -/
theorem leavesSticky_bind {α : Type} {s : State} {x : Except CmdError α} {f : α → Except CmdError State}
    (h : ∀ a, x = .ok a → leavesSticky s (f a)) : leavesSticky s (x >>= f) := by
  intro u hu
  obtain ⟨a, ha, hf⟩ := bind_eq_ok.mp hu
  exact h a ha u hf

theorem leavesSticky_append (s : State) (bs : List Byte) : leavesSticky s (s.append bs) := by
  intro u hu
  obtain ⟨-, -, rfl⟩ := State.append_eq_ok.mp hu
  simp

theorem leavesSticky_encString (s : State) (t : TlvType) : leavesSticky s (s.encString t) :=
  leavesSticky_bind fun _ _ => leavesSticky_append s _

theorem leavesSticky_henc (s : State) (c : FrameCmd) : leavesSticky s (s.henc c) := by
  intro u hu
  obtain ⟨na, -, -, rfl⟩ := State.henc_eq_ok.mp hu
  simp

theorem leavesSticky_decCount (s : State) (t : TlvType) : leavesSticky s (s.decCount t) :=
  leavesSticky_bind fun _ _ => leavesSticky_bind fun _ _ => leavesSticky_ok rfl

theorem leavesSticky_decFixed (s : State) (t : TlvType) (w : Nat) (conv : Nat → Word64) :
    leavesSticky s (s.decFixed t w conv) :=
  leavesSticky_bind fun _ _ => leavesSticky_bind fun _ _ => leavesSticky_ok rfl

theorem State.decString_errsticky {s u : State} {t : TlvType} {nbytes : Nat → Nat} {m : Nat}
    (h : s.decString t nbytes = .ok (m, u)) : u.errsticky = s.errsticky := by
  unfold State.decString at h
  simp only [bind_eq_ok, pure, Except.pure, Except.ok.injEq, Prod.mk.injEq] at h
  obtain ⟨p, -, ⟨m', k⟩, -, -, -, -, -, -, rfl⟩ := h
  simp

@[simp] theorem State.copyBuf_errsticky (s : State) (src dst : BufName) (n : Word16) :
    (s.copyBuf src dst n).errsticky = s.errsticky := by
  simp [State.copyBuf]

@[simp] theorem State.clearRx_errsticky (s : State) : s.clearRx.errsticky = s.errsticky := by
  simp [State.clearRx]

@[simp] theorem State.putRx_errsticky (s : State) (r : ParsedFrame) : (s.putRx r).errsticky = s.errsticky := by
  simp [State.putRx]

/-! ## Every command -/

theorem recordsEnd_of_finish {s t : State} {r : Except CmdError State} (hr : leavesSticky s r)
    (h : s.finish r = .next t) : recordsEnd s t := by
  obtain ⟨u, hu, rfl⟩ | ⟨e, -, rfl⟩ := State.finish_cases h
  · exact recordsEnd_done (hr u hu)
  · exact recordsEnd_raise e rfl

theorem recordsEnd_of_execHdec {s t : State} (h : execHdec s = .next t) : recordsEnd s t := by
  obtain ⟨-, hx⟩ | ⟨-, ⟨e, -, hx⟩ | ⟨r, -, hx⟩⟩ := execHdec_cases s <;> cases hx.symm.trans h
  · exact recordsEnd_raise _ rfl
  · exact recordsEnd_raise e s.clearRx_errsticky
  · exact recordsEnd_done (s.putRx_errsticky r)

/-- Every command but HDEC ends through `finish`, and its own writes leave ERRSTICKY unless it is SRST or CLRERR
(10_state.md R25). -/
theorem exec_eq_finish {i : Instr} (hdec : i ≠ .hdec) (hsrst : i ≠ .srst) (hclr : i ≠ .clrerr) (s : State) :
    ∃ r, exec i s = s.finish r ∧ leavesSticky s r := by
  cases i with
  | hdec | srst | clrerr => contradiction
  | nop => exact ⟨.ok s, rfl, leavesSticky_ok rfl⟩
  | crcInit => exact ⟨.ok { s with crcAcc := 0xFFFF }, rfl, leavesSticky_ok rfl⟩
  | crcUpd b => exact ⟨.ok { s with crcAcc := crcStep s.crcAcc b }, rfl, leavesSticky_ok rfl⟩
  | seqReset => exact ⟨.ok { s with sss := 0, rrr := 0 }, rfl, leavesSticky_ok rfl⟩
  | seqTxdone => exact ⟨.ok { s with sss := s.sss + 1 }, rfl, leavesSticky_ok rfl⟩
  | seqRxdone => exact ⟨.ok { s with rrr := s.rrr + 1 }, rfl, leavesSticky_ok rfl⟩
  | tlvRew => exact ⟨.ok { s with tlbCur := 0 }, rfl, leavesSticky_ok rfl⟩
  | tlvClr =>
    exact ⟨.ok { s.setLen .tlb 0 with tlbCur := 0 }, rfl, leavesSticky_ok (s.setLen_errsticky .tlb 0)⟩
  | xferF2r => exact ⟨_, rfl, leavesSticky_ok (s.copyBuf_errsticky _ _ _)⟩
  | crcUpds => exact ⟨_, rfl, leavesSticky_bind fun _ _ => leavesSticky_ok rfl⟩
  | xferT2p =>
    exact ⟨_, rfl, leavesSticky_bind fun _ _ => leavesSticky_bind fun _ _ =>
      leavesSticky_ok (s.copyBuf_errsticky _ _ _)⟩
  | xferP2t => exact ⟨_, rfl, leavesSticky_bind fun _ _ => leavesSticky_ok (s.copyBuf_errsticky _ _ _)⟩
  | hencI | hencRr | hencRnr | hencSnrm | hencDisc | hencUi | hencUa | hencDm | hencFrmr =>
    exact ⟨_, rfl, leavesSticky_henc s _⟩
  | tlvEncArr | tlvEncStruct | tlvEncBool | tlvEncI32 | tlvEncU32 | tlvEncI8 | tlvEncI16 | tlvEncU8 | tlvEncU16
  | tlvEncI64 | tlvEncU64 | tlvEncEnum | tlvEncF32 | tlvEncF64 | tlvWsize | tlvPutb =>
    exact ⟨_, rfl, leavesSticky_append s _⟩
  | tlvEncOstr | tlvEncVstr => exact ⟨_, rfl, leavesSticky_encString s _⟩
  | tlvEncBstr =>
    exact ⟨_, rfl, leavesSticky_bind fun _ _ => leavesSticky_bind fun _ _ => leavesSticky_append s _⟩
  | tlvDecArr | tlvDecStruct => exact ⟨_, rfl, leavesSticky_decCount s _⟩
  | tlvDecBool | tlvDecI32 | tlvDecU32 | tlvDecI8 | tlvDecI16 | tlvDecU8 | tlvDecU16 | tlvDecI64 | tlvDecU64
  | tlvDecEnum | tlvDecF32 | tlvDecF64 => exact ⟨_, rfl, leavesSticky_decFixed s _ _ _⟩
  | tlvDecOstr | tlvDecVstr | tlvDecBstr =>
    exact ⟨_, rfl, leavesSticky_bind fun a ha => leavesSticky_ok (State.decString_errsticky (u := a.2) ha)⟩
  | tlvRsize | tlvGetb =>
    exact ⟨_, rfl, leavesSticky_bind fun _ _ => leavesSticky_bind fun _ _ => leavesSticky_ok rfl⟩

theorem recordsEnd_of_exec {i : Instr} {s t : State} (hsrst : i ≠ .srst) (hclr : i ≠ .clrerr)
    (h : exec i s = .next t) : recordsEnd s t := by
  by_cases hdec : i = .hdec
  · subst hdec
    exact recordsEnd_of_execHdec h
  · obtain ⟨r, hx, hr⟩ := exec_eq_finish hdec hsrst hclr s
    exact recordsEnd_of_finish hr (hx.symm.trans h)

/-! ## The prologue -/

/-- A command word that is neither SRST nor CLRERR, legal or not, records how it ends. -/
theorem recordsEnd_of_runCommand {w : Word16} {s t : State} (hsrst : w ≠ 0x0001#16) (hclr : w ≠ 0x0002#16)
    (h : runCommand w s = .next t) : recordsEnd s t := by
  unfold runCommand at h
  split at h
  next i hi =>
    have hw : encode i = w := encode_of_decode hi
    exact recordsEnd_of_exec (s := { s with cmd := w }) (by rintro rfl; exact hsrst hw.symm)
      (by rintro rfl; exact hclr hw.symm) h
  next =>
    cases h
    exact recordsEnd_raise illegalCommand rfl

/-- SRST and CLRERR leave ERRSTICKY zero (40_system.md R122, R123). -/
theorem runCommand_errsticky_eq_zero {w : Word16} {s t : State} (hw : w = 0x0001#16 ∨ w = 0x0002#16)
    (h : runCommand w s = .next t) : t.errsticky = 0 := by
  obtain rfl | rfl := hw <;> cases h <;> rfl

/-! ## One step -/

/-- A host access other than the reset input leaves ERRSTICKY: the host cannot write it (10_state.md R25, R44). -/
theorem State.hostAccess_errsticky {s t : State} {a : HostAction} (ha : a ≠ .reset)
    (h : s.hostAccess a = .next t) : t.errsticky = s.errsticky := by
  cases a with
  | wr r v => cases h; exact s.writeReg_errsticky r v
  | wrb b i bs =>
    cases h
    unfold State.hostWriteBytes
    split <;> simp
  | rd r => cases h; rfl
  | rdb b i n =>
    simp only [State.hostAccess] at h
    split at h
    · cases h
    · cases h; rfl
  | reset => contradiction

section
variable {s t : State} {v : Word64} {rest : List HostAction}

theorem recordsEnd_of_step (hq : s.hostQueue = .wr .cmd v :: rest) (hsrst : v.setWidth 16 ≠ 0x0001#16)
    (hclr : v.setWidth 16 ≠ 0x0002#16) (h : step s = .next t) : recordsEnd s t := by
  rw [step_cons hq, perform_wr_cmd] at h
  exact recordsEnd_of_runCommand (s := { s with hostQueue := rest }) hsrst hclr h

theorem step_errsticky_of_srst_or_clrerr (hq : s.hostQueue = .wr .cmd v :: rest)
    (hv : v.setWidth 16 = 0x0001#16 ∨ v.setWidth 16 = 0x0002#16) (h : step s = .next t) : t.errsticky = 0 := by
  rw [step_cons hq, perform_wr_cmd] at h
  exact runCommand_errsticky_eq_zero hv h

theorem step_errsticky_of_reset (hq : s.hostQueue = .reset :: rest) (h : step s = .next t) : t.errsticky = 0 := by
  rw [step_cons hq] at h
  cases h
  rfl

theorem step_errsticky_of_access (hcmd : ∀ v, s.hostQueue.head? ≠ some (.wr .cmd v))
    (hreset : s.hostQueue.head? ≠ some .reset) (h : step s = .next t) : t.errsticky = s.errsticky := by
  cases hq : s.hostQueue with
  | nil =>
    cases (step_nil hq).symm.trans h
    rfl
  | cons a rest =>
    simp only [hq, List.head?_cons, ne_eq, Option.some.injEq] at hcmd hreset
    rw [step_cons hq, perform_eq_hostAccess hcmd] at h
    exact State.hostAccess_errsticky (s := { s with hostQueue := rest }) hreset h

/-- What a step makes of ERRSTICKY: recorded, cleared or kept. -/
theorem step_errsticky_cases (h : step s = .next t) :
    recordsEnd s t ∨ t.errsticky = 0 ∨ t.errsticky = s.errsticky := by
  by_cases hreset : s.hostQueue.head? = some .reset
  · obtain ⟨rest, hq⟩ := List.head?_eq_some_iff.mp hreset
    exact .inr (.inl (step_errsticky_of_reset hq h))
  by_cases hcmd : ∃ v, s.hostQueue.head? = some (.wr .cmd v)
  · obtain ⟨v, hv⟩ := hcmd
    obtain ⟨rest, hq⟩ := List.head?_eq_some_iff.mp hv
    by_cases hw : v.setWidth 16 = 0x0001#16 ∨ v.setWidth 16 = 0x0002#16
    · exact .inr (.inl (step_errsticky_of_srst_or_clrerr hq hw h))
    · obtain ⟨hsrst, hclr⟩ := not_or.mp hw
      exact .inl (recordsEnd_of_step hq hsrst hclr h)
  · exact .inr (.inr (step_errsticky_of_access (not_exists.mp hcmd) hreset h))

/-- The reserved bits 0 and 11 to 15 stay zero (10_state.md R25). -/
theorem step_keeps_reserved_errsticky (h : step s = .next t) (hs : s.errsticky &&& 0xF801 = 0) :
    t.errsticky &&& 0xF801 = 0 := by
  obtain hrec | hzero | hkept := step_errsticky_cases h
  · exact hrec.keeps_reserved hs
  · rw [hzero]; rfl
  · rw [hkept, hs]

end

/-- Settles O56, by what the next host action is: a command word, SRST or CLRERR, the reset input, or an access. -/
theorem errstickyRecordsEveryError : Obligations.ErrstickyRecordsEveryError := by
  intro s t h
  refine ⟨fun v rest hq => ⟨fun hsrst hclr => ?_, fun hv => ?_⟩, fun rest hq => ?_, fun hcmd hreset => ?_, ?_⟩
  · exact (recordsEnd_of_step hq hsrst hclr h).errsticky
  · exact step_errsticky_of_srst_or_clrerr hq hv h
  · exact step_errsticky_of_reset hq h
  · exact step_errsticky_of_access hcmd hreset h
  · exact step_keeps_reserved_errsticky h

end Sys2Proof.Machine
end

section
/-!
Legal command words (30_encoding.md R83): that they are the words that decode, how many there are, what the step
makes of any other word, and the statement about them.
-/

namespace Sys2Proof

/-! ## The fields of a legal word -/

theorem opOf_word (op arg : Byte) : opOf (word op arg) = op := BitVec.extractLsb'_append_eq_right

theorem argOf_word (op arg : Byte) : argOf (word op arg) = arg := BitVec.extractLsb'_append_eq_left

/-- The pairs of OP and ARG that no clause of 30_encoding.md R83 makes illegal, by the rows of R81: ARG zero, ARG an
immediate byte, ARG the index of a frame command, ARG a tag. -/
def legalFields : Finset (Byte × Byte) :=
  zeroArgOps.toFinset ×ˢ {0} ∪ immediateOps.toFinset ×ˢ Finset.univ
    ∪ {0x20} ×ˢ Finset.univ.filter (fun arg : Byte => arg.toNat ≤ 8) ∪ {0x40, 0x41} ×ˢ tlvTags.toFinset

theorem mem_legalFields {op arg : Byte} :
    (op, arg) ∈ legalFields ↔
      ((op ∈ zeroArgOps ∧ arg = 0 ∨ op ∈ immediateOps) ∨ op = 0x20 ∧ arg.toNat ≤ 8)
        ∨ (op = 0x40 ∨ op = 0x41) ∧ arg ∈ tlvTags := by
  simp only [legalFields, Finset.mem_union, Finset.mem_product, List.mem_toFinset, Finset.mem_singleton,
    Finset.mem_insert, Finset.mem_filter, Finset.mem_univ, and_true, true_and]

theorem legalWord_iff_mem_legalFields {w : Word16} : legalWord w = true ↔ (opOf w, argOf w) ∈ legalFields := by
  simp [legalWord, mem_legalFields]

/-! ## The legal words are those that decode -/

/-- A row whose ARG is an immediate byte takes every byte (30_encoding.md R81). -/
theorem decode_word_immediate {op : Byte} (h : op ∈ immediateOps) (arg : Byte) :
    ∃ i, decode (word op arg) = .ok i := by
  obtain rfl | rfl : op = 0x11 ∨ op = 0x44 := by simpa [immediateOps] using h
  · exact ⟨.crcUpd arg, by simp [decode, opOf_word, argOf_word]⟩
  · exact ⟨.tlvPutb arg, by simp [decode, opOf_word, argOf_word]⟩

theorem decode_word_of_mem_legalFields {op arg : Byte} (h : (op, arg) ∈ legalFields) :
    ∃ i, decode (word op arg) = .ok i := by
  obtain ((⟨hop, rfl⟩ | hop) | ⟨rfl, harg⟩) | ⟨hop, harg⟩ := mem_legalFields.mp h
  · fin_cases hop <;> exact ⟨_, rfl⟩
  · exact decode_word_immediate hop arg
  · obtain ⟨n, hn, rfl⟩ : ∃ n < 9, arg = BitVec.ofNat 8 n := ⟨arg.toNat, by omega, by simp⟩
    interval_cases n <;> exact ⟨_, rfl⟩
  · obtain rfl | rfl := hop
    · fin_cases harg <;> exact ⟨_, rfl⟩
    · fin_cases harg <;> exact ⟨_, rfl⟩

theorem legalWord_encode (i : Instr) : legalWord (encode i) = true := by
  cases i with
  | crcUpd b => exact Laws.EncodingLegal.crcUpd b
  | tlvPutb b => exact Laws.EncodingLegal.tlvPutb b
  | _ => rfl

theorem decodes_iff_legalWord {w : Word16} : (∃ i, decode w = .ok i) ↔ legalWord w = true := by
  constructor
  · rintro ⟨i, hi⟩
    rw [← encode_of_decode hi]
    exact legalWord_encode i
  · intro h
    rw [← word_opOf_argOf w]
    exact decode_word_of_mem_legalFields (legalWord_iff_mem_legalFields.mp h)

/-! ## How many words are legal -/

/-- Rows with different OP share no word. -/
theorem disjoint_rows {ops ops' : Finset Byte} (h : Disjoint ops ops') (args args' : Finset Byte) :
    Disjoint (ops ×ˢ args) (ops' ×ˢ args') := Finset.disjoint_product.mpr (.inl h)

theorem card_bytes : (Finset.univ : Finset Byte).card = 256 := FinEnum.card_eq_fintypeCard.symm

theorem card_frameIndices : (Finset.univ.filter fun arg : Byte => arg.toNat ≤ 8).card = 9 := by decide

/-- Seventeen rows with ARG zero, two with any ARG, the nine frame commands, and seventeen tags twice. -/
theorem card_legalFields : legalFields.card = 17 * 1 + 2 * 256 + 1 * 9 + 2 * 17 := by
  unfold legalFields
  rw [Finset.card_union_of_disjoint, Finset.card_union_of_disjoint, Finset.card_union_of_disjoint,
    Finset.card_product, Finset.card_product, Finset.card_product, Finset.card_product, card_bytes, card_frameIndices]
  · rfl
  · exact disjoint_rows (by decide) _ _
  · exact Finset.disjoint_union_left.mpr ⟨disjoint_rows (by decide) _ _, disjoint_rows (by decide) _ _⟩
  · simp only [Finset.disjoint_union_left]
    exact ⟨⟨disjoint_rows (by decide) _ _, disjoint_rows (by decide) _ _⟩, disjoint_rows (by decide) _ _⟩

theorem word_injective {op op' arg arg' : Byte} (h : word op arg = word op' arg') : op = op' ∧ arg = arg' :=
  ⟨by rw [← opOf_word op arg, h, opOf_word], by rw [← argOf_word op arg, h, argOf_word]⟩

/-- The number of a command word, from its two fields. -/
def wordNumber (f : Byte × Byte) : Nat := (word f.1 f.2).toNat

theorem wordNumber_injective : Function.Injective wordNumber := fun _ _ h =>
  Prod.ext_iff.mpr (word_injective (BitVec.eq_of_toNat_eq h))

/-- The numbers of the legal words. -/
def legalNumbers : List Nat := (List.range 65536).filter fun n => legalWord (BitVec.ofNat 16 n)

theorem mem_legalNumbers {n : Nat} : n ∈ legalNumbers ↔ n < 65536 ∧ legalWord (BitVec.ofNat 16 n) = true := by
  rw [legalNumbers, List.mem_filter, List.mem_range]

theorem toFinset_legalNumbers : legalNumbers.toFinset = legalFields.image wordNumber := by
  ext n
  rw [List.mem_toFinset, mem_legalNumbers, Finset.mem_image]
  constructor
  · rintro ⟨hn, hlegal⟩
    refine ⟨_, legalWord_iff_mem_legalFields.mp hlegal, ?_⟩
    rw [wordNumber, word_opOf_argOf, BitVec.toNat_ofNat, Nat.mod_eq_of_lt hn]
  · rintro ⟨⟨op, arg⟩, hf, rfl⟩
    refine ⟨BitVec.isLt _, legalWord_iff_mem_legalFields.mpr ?_⟩
    rwa [wordNumber, BitVec.ofNat_toNat, BitVec.setWidth_eq, opOf_word, argOf_word]

theorem length_legalNumbers : legalNumbers.length = 572 :=
  calc legalNumbers.length = legalNumbers.toFinset.card :=
        (List.toFinset_card_of_nodup (List.nodup_range.filter _)).symm
    _ = legalFields.card := by rw [toFinset_legalNumbers, Finset.card_image_of_injective _ wordNumber_injective]
    _ = 572 := card_legalFields

end Sys2Proof

namespace Sys2Proof.Machine

/-! ## What the step makes of an illegal word -/

/-- An illegal word only reports (40_system.md R120). -/
theorem runCommand_of_not_legal {w : Word16} (h : legalWord w = false) (s : State) :
    runCommand w s = .next (State.raise { s with cmd := w } illegalCommand) := by
  unfold runCommand
  split
  next i hi => exact absurd (decodes_iff_legalWord.mp ⟨i, hi⟩) (by simp [h])
  next => rfl

/-- Settles O2: legal words and decoding by the fields of a word, the illegal word by the prologue, the number by
counting the fields row by row. -/
theorem everyWordIsACommandOrIllegal : Obligations.EveryWordIsACommandOrIllegal := by
  refine ⟨fun w => decodes_iff_legalWord, fun s v rest hq hw => ?_, length_legalNumbers⟩
  rw [step_cons hq, perform_wr_cmd, runCommand_of_not_legal hw]
  rfl

end Sys2Proof.Machine
end

section
/-!
Numbers as bytes (20_memory.md R64), the length field of a value that is made of them (30_encoding.md R101), and the
statement about the field's forms.
-/

namespace Sys2Proof.Machine

/-! ## The bytes of a number -/

/-- The bytes of a number are its digits in base 256, the most significant first. -/
theorem map_toNat_be_succ (n v : Nat) :
    (be (n + 1) v).map BitVec.toNat = v / 256 ^ n % 256 :: (be n v).map BitVec.toNat := by
  simp [be, Nat.shiftRight_eq_div_pow, Nat.pow_mul]

theorem map_toNat_be_zero (v : Nat) : (be 0 v).map BitVec.toNat = [] := rfl

/-! ## The five forms of `wsize` -/

theorem wsize_short {n : Nat} (h : n ≤ 0x80) : wsize n = be 1 n := if_pos h

theorem wsize_one {n : Nat} (h : 0x80 < n) (h' : n ≤ 0xFF) : wsize n = 0x81 :: be 1 n := by
  rw [wsize, if_neg (by omega), if_pos h']

theorem wsize_two {n : Nat} (h : 0xFF < n) (h' : n ≤ 0xFFFF) : wsize n = 0x82 :: be 2 n := by
  rw [wsize, if_neg (by omega), if_neg (by omega), if_pos h']

theorem wsize_three {n : Nat} (h : 0xFFFF < n) (h' : n ≤ 0xFFFFFF) : wsize n = 0x83 :: be 3 n := by
  rw [wsize, if_neg (by omega), if_neg (by omega), if_neg (by omega), if_pos h']

theorem wsize_four {n : Nat} (h : 0xFFFFFF < n) : wsize n = 0x84 :: be 4 n := by
  rw [wsize, if_neg (by omega), if_neg (by omega), if_neg (by omega), if_neg (by omega)]

/-- Settles O41: each form by its branch of `wsize` and the digits of the number. -/
theorem lengthPrefixForms : Obligations.LengthPrefixForms := by
  intro n hn
  refine ⟨fun h => (congrArg _ (wsize_short h)).trans ?_, fun h h' => (congrArg _ (wsize_one h h')).trans ?_,
    fun h h' => (congrArg _ (wsize_two h h')).trans ?_, fun h h' => (congrArg _ (wsize_three h h')).trans ?_,
    fun h => (congrArg _ (wsize_four h)).trans ?_⟩
  all_goals
    simp only [List.map_cons, map_toNat_be_succ, map_toNat_be_zero, List.cons.injEq, and_true, BitVec.reduceToNat,
      true_and]
    omega

end Sys2Proof.Machine
end

section
/-!
The control byte of a frame (30_encoding.md R92 to R95) and the statement about it.
-/

namespace Sys2Proof

/-! ## The default classification -/

/-- The first rule of a classification decides, or the others do (30_encoding.md R93). -/
theorem Config.firstMatch_cons (u : Byte) (r : ClassRule) (rs : List ClassRule) :
    ((r :: rs).find? fun r => u &&& r.mask == r.value).map (·.cmd)
      = if u &&& r.mask = r.value then some r.cmd
        else (rs.find? fun r => u &&& r.mask == r.value).map (·.cmd) := by
  by_cases h : u &&& r.mask = r.value <;> simp [h]

theorem and_one_eq_zero_iff {u : Byte} : u &&& 0x01 = 0x00 ↔ u.getLsbD 0 = false := by
  revert u; decide

theorem and_low_nibble_eq_iff {u k : Byte} : u &&& 0x0F = k ↔ u.toNat % 16 = k.toNat := by
  have hmask : u.toNat &&& 15 = u.toNat % 16 := Nat.and_two_pow_sub_one_eq_mod _ 4
  rw [← BitVec.toNat_inj, BitVec.toNat_and, ← hmask]
  rfl

theorem and_all_ones (u : Byte) : u &&& 0xFF = u := BitVec.and_allOnes

/-- The rules of the default classification are the rows of 30_encoding.md R93 in their order. -/
theorem classify_defaultTags (ctrl : Byte) : Config.defaultTags.classify ctrl = Claims.defaultClass ctrl := by
  simp only [Config.CtrlTags.classify, Config.defaultTags, Config.firstMatch_cons, and_one_eq_zero_iff,
    and_low_nibble_eq_iff, and_all_ones]
  rfl

/-! ## What CTRL_TAGS must meet -/

section
variable {t : Config.CtrlTags}

/-- Bit 4 and the bits of 0xEF are all the bits of a byte. -/
theorem eq_zero_of_and {b : Byte} (h4 : b &&& 0x10 = 0) (h : b &&& 0xEF = 0) : b = 0 :=
  calc b = b &&& (0x10 ||| 0xEF) := (and_all_ones b).symm
    _ = 0 := by rw [BitVec.and_or_distrib_left, h4, h]; rfl

/-- The tag of an I frame is zero (30_encoding.md R94). -/
theorem Config.CtrlTags.tagI_of_wf (h : t.wf = true) : t.tagI = 0 := by
  simp only [Config.CtrlTags.wf, Bool.and_eq_true, List.all_eq_true, beq_iff_eq] at h
  obtain ⟨⟨⟨hbit4, hI⟩, -⟩, -⟩ := h
  exact eq_zero_of_and (hbit4 .I (by decide)) hI

/-- The tag of a command other than I, with the P/F bit, is classified as that command (30_encoding.md R94). -/
theorem Config.CtrlTags.classify_tag_of_wf (h : t.wf = true) {c : FrameCmd} (hc : c ≠ .I) :
    t.classify (t.tag c ||| 0x10) = some c := by
  simp only [Config.CtrlTags.wf, Bool.and_eq_true, List.all_eq_true, beq_iff_eq, Bool.or_eq_true] at h
  obtain ⟨⟨-, htags⟩, -⟩ := h
  exact (htags c (by cases c <;> decide)).resolve_left hc

theorem ofNat_shiftLeft_toNat (x : BitVec 3) (n : Nat) :
    BitVec.ofNat 8 (x.toNat <<< n) = x.setWidth 8 <<< n := by
  apply BitVec.eq_of_toNat_eq
  rw [BitVec.toNat_ofNat, BitVec.toNat_shiftLeft, BitVec.toNat_setWidth_of_le (by omega)]

/-- Whatever the two sequence numbers, the control byte of an I frame is classified as I (30_encoding.md R94). -/
theorem Config.CtrlTags.classify_I_of_wf (h : t.wf = true) (x y : BitVec 3) :
    t.classify (t.tagI ||| 0x10#8 ||| x.setWidth 8 <<< 5 ||| y.setWidth 8 <<< 1) = some .I := by
  simp only [Config.CtrlTags.wf, Bool.and_eq_true, List.all_eq_true, beq_iff_eq] at h
  obtain ⟨-, hI⟩ := h
  rw [← ofNat_shiftLeft_toNat, ← ofNat_shiftLeft_toNat]
  exact hI x.toNat (List.mem_range.mpr x.isLt) y.toNat (List.mem_range.mpr y.isLt)

end

end Sys2Proof

namespace Sys2Proof.Machine

/-! ## The layout of an I frame's control byte -/

/-- The sequence number sent, the P/F bit, the one received and a zero, side by side (30_encoding.md R95). -/
def sequenceByte (x y : BitVec 3) : Byte := x ++ 1#1 ++ y ++ 0#1

/-- The formula of 30_encoding.md R95 for a tag of zero gives that layout. -/
theorem or_shiftLeft_eq_sequenceByte (x y : BitVec 3) :
    0x00#8 ||| 0x10#8 ||| x.setWidth 8 <<< 5 ||| y.setWidth 8 <<< 1 = sequenceByte x y := by
  revert x y; decide

theorem sequenceByte_send (x y : BitVec 3) : (sequenceByte x y).extractLsb' 5 3 = x := by
  revert x y; decide

theorem sequenceByte_recv (x y : BitVec 3) : (sequenceByte x y).extractLsb' 1 3 = y := by
  revert x y; decide

theorem sequenceByte_pollFinal (x y : BitVec 3) : (sequenceByte x y).getLsbD 4 = true := by
  revert x y; decide

theorem sequenceByte_zero (x y : BitVec 3) : (sequenceByte x y).getLsbD 0 = false := by
  revert x y; decide

/-- `CTRL[7:5] + 7` takes back the 1 that the formula adds (30_encoding.md R95). -/
theorem ctrlSend_sequenceByte (s r : BitVec 3) : ctrlSend (sequenceByte (s + 1) r) = s :=
  calc ctrlSend (sequenceByte (s + 1) r) = s + 1 + 7 := congrArg (· + 7) (sequenceByte_send (s + 1) r)
    _ = s := by rw [BitVec.add_assoc]; exact BitVec.add_zero s

/-! ## The control byte -/

section
variable {t : Config.CtrlTags}

theorem controlByte_of_ne_I {c : FrameCmd} (hc : c ≠ .I) (s r : BitVec 3) :
    controlByte t c s r = t.tag c ||| 0x10 := by
  cases c with
  | I => contradiction
  | _ => rfl

theorem controlByte_I (h : t.wf = true) (s r : BitVec 3) : controlByte t .I s r = sequenceByte (s + 1) r :=
  calc controlByte t .I s r = t.tagI ||| 0x10#8 ||| (s + 1).setWidth 8 <<< 5 ||| r.setWidth 8 <<< 1 := rfl
    _ = 0x00#8 ||| 0x10#8 ||| (s + 1).setWidth 8 <<< 5 ||| r.setWidth 8 <<< 1 := by
      rw [Config.CtrlTags.tagI_of_wf h]; rfl
    _ = sequenceByte (s + 1) r := or_shiftLeft_eq_sequenceByte _ _

/-- The classification of what the encoder writes gives the command back. -/
theorem classify_controlByte (h : t.wf = true) (c : FrameCmd) (s r : BitVec 3) :
    t.classify (controlByte t c s r) = some c := by
  by_cases hc : c = .I
  · subst hc
    exact Config.CtrlTags.classify_I_of_wf h (s + 1) r
  · rw [controlByte_of_ne_I hc, Config.CtrlTags.classify_tag_of_wf h hc]

end

/-- Settles O24: the tables row by row, the classification from R94, the fields from the byte's layout. -/
theorem controlByteFields : Obligations.ControlByteFields := by
  refine ⟨rfl, classify_defaultTags, fun t h c s r =>
    ⟨fun hc => controlByte_of_ne_I hc s r, classify_controlByte h c s r, ?_⟩⟩
  simp only [controlByte_I h]
  refine ⟨?_, sequenceByte_pollFinal _ _, sequenceByte_recv _ _, sequenceByte_zero _ _, ctrlSend_sequenceByte s r,
    sequenceByte_recv _ _⟩
  rw [sequenceByte_send]
  exact BitVec.toNat_add s 1

end Sys2Proof.Machine
end

section
/-!
Appending to TLB (45_tlv_cursor.md R192): what a command that ends with `append` does, for each of the seventeen
TLV.ENC commands what it appends (30_encoding.md R99 to R105), and the statement about them.
-/

namespace Sys2Proof.Machine

/-! ## A command that raises -/

/-- ERRINFO as one number: the sub-cause above the offset (10_state.md R24). -/
theorem CmdError.infoWord_eq {e : CmdError} (hsub : e.sub < 256) (hoff : e.off < 65536) :
    e.infoWord = BitVec.ofNat 32 (e.sub * 65536 + e.off) := by
  have hsum : e.infoWord.toNat = e.sub * 65536 + e.off :=
    calc e.infoWord.toNat = (0#8 ++ BitVec.ofNat 8 e.sub).toNat <<< 16 ||| (BitVec.ofNat 16 e.off).toNat :=
          BitVec.toNat_append _ _
      _ = (0 <<< 8 ||| (BitVec.ofNat 8 e.sub).toNat) <<< 16 ||| (BitVec.ofNat 16 e.off).toNat :=
          congrArg (· <<< 16 ||| _) (BitVec.toNat_append 0#8 _)
      _ = e.sub <<< 16 ||| e.off := by simp [Nat.mod_eq_of_lt hsub, Nat.mod_eq_of_lt hoff]
      _ = e.sub * 65536 + e.off := by rw [← Nat.shiftLeft_add_eq_or_of_lt hoff, Nat.shiftLeft_eq]
  rw [← hsum, BitVec.ofNat_toNat, BitVec.setWidth_eq]

/-- A command whose checks fail raises their error and changes nothing else (60_exceptions.md R276). -/
theorem raises_of_exec_eq {i : Instr} {s : State} {e : CmdError} (hsub : e.sub < 256) (hoff : e.off < 65536)
    (h : exec i s = s.finish (.error e)) : Claims.raises i s e.code.num e.sub e.off := by
  rw [Claims.raises, h, State.finish_error, State.raise, CmdError.infoWord_eq hsub hoff]
  rfl

/-! ## append -/

section
variable {i : Instr} {s : State} {bs : List Byte}

theorem State.append_of_len_above_cap (h : s.params.tlbCap < s.tlbLen.toNat) :
    s.append bs = .error ⟨.invalidOperand, 1, 0⟩ := by
  rw [State.append, raiseIf_bind, if_pos h]

theorem State.append_of_not_fit (h : s.tlbLen.toNat ≤ s.params.tlbCap)
    (hfit : s.params.tlbCap < s.tlbLen.toNat + bs.length) : s.append bs = .error ⟨.capacityExceeded, 4, 0⟩ := by
  rw [State.append, raiseIf_bind, if_neg (by omega), raiseIf_bind, if_pos hfit]

/-- A length register that is not lowered keeps the bytes. -/
theorem State.setLen_of_not_lowered {b : BufName} {v : Word16} (h : ¬ v < s.len b) : s.setLen b v = s.putLen b v :=
  if_neg h

/-- No capacity is above the largest length (00_scope.md R6). -/
theorem tlbCap_lt_of_wf {p : Config.Params} (h : p.wf = true) : p.tlbCap < 65536 := by
  simp only [Config.Params.wf, Config.capOk, Bool.and_eq_true, decide_eq_true_eq] at h
  omega

/-- A length that grows without passing the largest number is not lowered. -/
theorem not_ofNat_add_lt {v : Word16} {n : Nat} (h : v.toNat + n < 65536) : ¬ BitVec.ofNat 16 (v.toNat + n) < v := by
  rw [BitVec.lt_def, BitVec.toNat_ofNat]
  omega

theorem State.append_of_fit (hwf : s.params.wf = true) (h : s.tlbLen.toNat + bs.length ≤ s.params.tlbCap) :
    s.append bs = .ok { s with
      tlb := s.tlb.write s.tlbLen.toNat bs, tlbLen := BitVec.ofNat 16 (s.tlbLen.toNat + bs.length) } := by
  have hcap := tlbCap_lt_of_wf hwf
  have hup : ¬ BitVec.ofNat 16 (s.tlbLen.toNat + bs.length) < (s.writeBytes .tlb s.tlbLen.toNat bs).len .tlb :=
    not_ofNat_add_lt (by omega)
  refine State.append_eq_ok.mpr ⟨by omega, h, ?_⟩
  rw [State.setLen_of_not_lowered hup]
  rfl

/-- Bytes written to a buffer whose length register is not lowered are stored there and nothing else is. -/
theorem storesOnly_of_buf_eq_write {b : BufName} {k : Nat} {t : State} (hbuf : t.buf b = (s.buf b).write k bs)
    (hlen : ¬ t.len b < s.len b) : storesOnly b k bs s t := by
  have hbyte : ∀ j, t.byteAt b j = _ := fun j => by rw [State.byteAt, hbuf, Buf.byteAt_write]
  constructor
  · intro j v hv
    obtain ⟨hj, rfl⟩ := List.getElem?_eq_some_iff.mp hv
    simp [hbyte, hj]
  · intro j hj
    rw [if_neg hlen, hbyte, dif_neg (by omega), State.byteAt]

/-- A command that ends with `append bs` appends `bs` whole or raises (45_tlv_cursor.md R192). -/
theorem appendsOrRaises_of_exec_eq (hwf : s.params.wf = true) (hx : exec i s = s.finish (s.append bs)) :
    Claims.appendsOrRaises i s bs := by
  have hcap := tlbCap_lt_of_wf hwf
  refine ⟨fun h => ?_, fun h => ?_, fun h hfit => ?_⟩
  · rw [State.append_of_fit hwf h, State.finish_ok] at hx
    refine ⟨_, hx, storesOnly_of_buf_eq_write rfl ?_, ?_, ⟨rfl, rfl⟩, rfl⟩
    · exact not_ofNat_add_lt (by omega)
    · exact Nat.mod_eq_of_lt (by omega)
  · exact raises_of_exec_eq (e := ⟨.invalidOperand, 1, 0⟩) (by decide) (by decide)
      (by rw [hx, State.append_of_len_above_cap h])
  · exact raises_of_exec_eq (e := ⟨.capacityExceeded, 4, 0⟩) (by decide) (by decide)
      (by rw [hx, State.append_of_not_fit h hfit])

end

/-! ## What each TLV.ENC appends -/

theorem tag_eq_tagNumber (t : TlvType) : t.tag = Claims.tagNumber t := by
  cases t <;> rfl

/-- The bytes of a number, by position. -/
theorem be_eq_map (w v : Nat) :
    be w v = (List.range w).map fun j => BitVec.ofNat 8 (v >>> (8 * (w - 1 - j))) := by
  induction w with
  | zero => rfl
  | succ w ih =>
    rw [be, ih, List.range_succ_eq_map, List.map_cons, List.map_map]
    refine congrArg (_ :: ·) (List.map_congr_left fun j _ => ?_)
    rw [Function.comp, show w + 1 - 1 - j.succ = w - 1 - j by omega]

theorem State.valBytes_eq_fixedContent (s : State) (w : Nat) : s.valBytes w = Claims.fixedContent s w :=
  be_eq_map w s.val.toNat

theorem State.encFixed_eq (s : State) (t : TlvType) (w : Nat) :
    s.encFixed t w = s.append (Claims.tagNumber t :: Claims.fixedContent s w) := by
  rw [State.encFixed, tag_eq_tagNumber, State.valBytes_eq_fixedContent]

theorem State.encCount_eq (s : State) (t : TlvType) :
    s.encCount t = s.append (Claims.tagNumber t :: wsize s.count) := by
  rw [State.encCount, tag_eq_tagNumber]

theorem State.encString_eq {s : State} (h : s.strLen.toNat ≤ s.params.strCap) (t : TlvType) :
    s.encString t = s.append (Claims.tagNumber t :: (wsize s.strLen.toNat ++ Claims.strContent s)) := by
  rw [State.encString, raiseIf_bind, if_neg (by omega), tag_eq_tagNumber]
  rfl

/-- A bit string's length field counts bits, its content bytes (46_tlv_encode.md R214). -/
theorem execTlvEncBstr_eq {s : State} (hlen : s.strLen.toNat ≤ s.params.strCap)
    (hbits : bytesOfBits s.count = s.strLen.toNat) :
    execTlvEncBstr s
      = s.finish (s.append (Claims.tagNumber .bstr :: (wsize s.count ++ Claims.strContent s))) := by
  rw [execTlvEncBstr, raiseIf_bind, if_neg (by omega), raiseIf_bind, if_neg (not_not.mpr hbits), tag_eq_tagNumber]
  rfl

/-- A TLV.ENC command whose operand checks pass ends with the append of its value. -/
theorem exec_enc {t : TlvType} {s : State} (h : Claims.encOk t s) :
    exec t.enc s = s.finish (s.append (Claims.encoded t s)) := by
  cases t with
  | arr | struct => exact congrArg s.finish (s.encCount_eq _)
  | i8 | u8 | enum | i16 | u16 | i32 | u32 | f32 | i64 | u64 | f64 => exact congrArg s.finish (s.encFixed_eq _ _)
  | ostr | vstr => exact congrArg s.finish (State.encString_eq h _)
  | bool => rfl
  | bstr =>
    obtain ⟨hlen, hbits⟩ := h
    exact execTlvEncBstr_eq hlen hbits

/-- Settles O43: every TLV.ENC ends with `append`, which appends the whole value or raises. -/
theorem encAppendsOneWholeValue : Obligations.EncAppendsOneWholeValue := by
  refine ⟨fun t => ⟨?_, ?_⟩, fun t s hwf hok => appendsOrRaises_of_exec_eq hwf (exec_enc hok)⟩
  · rw [encode_enc, tag_eq_tagNumber]; rfl
  · rw [encode_dec, tag_eq_tagNumber]; rfl

end Sys2Proof.Machine
end

section
/-!
The system commands that clear errors or copy between buffers (40_system.md R121, R123 to R126): what a transfer
stores, what it leaves alone, when it raises, and the statements about these commands.
-/

namespace Sys2Proof.Machine

/-! ## NOP and CLRERR -/

theorem exec_nop (s : State) : exec .nop s = .next s.done := rfl

theorem exec_clrerr (s : State) : exec .clrerr s = .next ({ s with errsticky := 0 } : State).done := rfl

/-- Settles O11: both commands end with `done`, and CLRERR has cleared ERRSTICKY before it. -/
theorem nopAndClrerrComplete : Obligations.NopAndClrerrComplete :=
  ⟨rfl, rfl, fun s => ⟨exec_nop s, exec_clrerr s⟩⟩

/-! ## Bytes stored before a length register is written -/

theorem Buf.byteAt_of_get? {x : Buf} {j : Nat} {c : Byte} (h : x.cells.get? j = some c) (b : BufName) :
    x.byteAt b j = c := by
  rw [Buf.byteAt, h]

section
variable {b : BufName} {v : Word16} {s : State} {j : Nat}

/-- The specified bytes below the new length survive the write of a length register. -/
theorem State.get?_setLen_of_lt (h : j < v.toNat) :
    ((s.setLen b v).buf b).cells.get? j = (s.buf b).cells.get? j := by
  rw [State.buf_setLen]
  split
  · exact Memory.get?_below_of_lt h
  · rfl

/-- Lowering a length register leaves no specified byte at or above it (10_state.md R43). -/
theorem State.get?_setLen_of_lowered (hv : v < s.len b) (h : v.toNat ≤ j) :
    ((s.setLen b v).buf b).cells.get? j = none := by
  rw [State.buf_setLen, if_pos hv, Buf.truncate, Memory.get?_below, if_neg (by omega)]

/-- Every stored byte is a specified one. -/
theorem State.get?_writeBytes {i k : Nat} {bs : List Byte} {c : Byte} (h : bs[k]? = some c) :
    ((s.writeBytes b i bs).buf b).cells.get? (i + k) = some c := by
  obtain ⟨hk, rfl⟩ := List.getElem?_eq_some_iff.mp h
  rw [State.buf_writeBytes, Buf.write, Memory.get?_write]
  simp [hk]

/-- Storing bytes and then writing a length register that covers them stores those bytes only. -/
theorem storesOnly_setLen_writeBytes {i : Nat} {bs : List Byte} (h : i + bs.length ≤ v.toNat) :
    storesOnly b i bs s ((s.writeBytes b i bs).setLen b v) := by
  constructor
  · intro k c hc
    have hk : k < bs.length := (List.getElem?_eq_some_iff.mp hc).1
    exact Buf.byteAt_of_get? ((State.get?_setLen_of_lt (by omega)).trans (State.get?_writeBytes hc)) b
  · intro j hj
    rw [State.len_setLen]
    split
    case isTrue hv => exact State.get?_setLen_of_lowered (by rwa [State.len_writeBytes])
    case isFalse hv =>
      rw [State.byteAt, State.buf_setLen, State.len_writeBytes, if_neg hv, ← State.byteAt,
        State.byteAt_writeBytes, dif_neg (by omega)]

/-- `storesOnly` looks at one buffer and its length register. -/
theorem storesOnly_congr {t u : State} {i : Nat} {bs : List Byte} (hbuf : u.buf b = t.buf b)
    (hlen : u.len b = t.len b) (h : storesOnly b i bs s t) : storesOnly b i bs s u := by
  simpa only [storesOnly, State.byteAt, hbuf, hlen] using h

end

/-! ## copyBuf -/

section
variable (s : State) (src dst : BufName) (n : Word16)

@[simp] theorem State.len_copyBuf : (s.copyBuf src dst n).len dst = n := State.len_setLen _ dst n

theorem storesOnly_copyBuf : storesOnly dst 0 (s.readBytes src 0 n.toNat) s (s.copyBuf src dst n) :=
  storesOnly_setLen_writeBytes (by simp)

/-- A copy replaces the target buffer and its length register, and no other field. -/
theorem State.copyBuf_eq_putLen_setBuf :
    s.copyBuf src dst n = (s.setBuf dst ((s.copyBuf src dst n).buf dst)).putLen dst n := by
  rw [State.copyBuf, State.buf_setLen, State.setLen]
  cases dst <;> split <;> rfl

end

/-! ## The transfer commands -/

section
variable {s : State}

theorem exec_xferT2p_of_fit (hcap : s.tlbLen.toNat ≤ s.params.tlbCap) (hfit : s.tlbLen.toNat ≤ s.params.payCap) :
    exec .xferT2p s = .next (s.copyBuf .tlb .txp s.tlbLen).done := by
  rw [exec, execXferT2p, raiseIf_bind, if_neg (by omega), raiseIf_bind, if_neg (by omega)]
  rfl

theorem exec_xferT2p_of_len_above_cap (h : s.params.tlbCap < s.tlbLen.toNat) :
    exec .xferT2p s = s.finish (.error ⟨.invalidOperand, 1, 0⟩) := by
  rw [exec, execXferT2p, raiseIf_bind, if_pos h]

theorem exec_xferT2p_of_not_fit (hcap : s.tlbLen.toNat ≤ s.params.tlbCap)
    (h : s.params.payCap < s.tlbLen.toNat) :
    exec .xferT2p s = s.finish (.error ⟨.capacityExceeded, 1, 0⟩) := by
  rw [exec, execXferT2p, raiseIf_bind, if_neg (by omega), raiseIf_bind, if_pos h]

theorem exec_xferP2t_of_fit (h : s.rxpLen.toNat ≤ s.params.tlbCap) :
    exec .xferP2t s = .next ({ s.copyBuf .rxp .tlb s.rxpLen with tlbCur := 0 } : State).done := by
  rw [exec, execXferP2t, raiseIf_bind, if_neg (by omega)]
  rfl

theorem exec_xferP2t_of_not_fit (h : s.params.tlbCap < s.rxpLen.toNat) :
    exec .xferP2t s = s.finish (.error ⟨.capacityExceeded, 2, 0⟩) := by
  rw [exec, execXferP2t, raiseIf_bind, if_pos h]

theorem exec_xferF2r (s : State) : exec .xferF2r s = .next (s.copyBuf .txf .rxf s.txfLen).done := rfl

end

/-- Settles O18: a TLB content that fits is copied to TXP, and each of the two checks raises its own error. -/
theorem xferT2pCompletes : Obligations.XferT2pCompletes := by
  refine ⟨rfl, fun s => ⟨fun hcap hfit => ?_, fun h => ?_, fun hcap h => ?_⟩⟩
  · refine ⟨_, exec_xferT2p_of_fit hcap hfit, storesOnly_congr rfl rfl (storesOnly_copyBuf s .tlb .txp s.tlbLen),
      s.len_copyBuf .tlb .txp s.tlbLen, ⟨rfl, rfl⟩, ?_⟩
    rw [State.copyBuf_eq_putLen_setBuf]
    rfl
  · exact raises_of_exec_eq (e := ⟨.invalidOperand, 1, 0⟩) (by decide) (by decide)
      (exec_xferT2p_of_len_above_cap h)
  · exact raises_of_exec_eq (e := ⟨.capacityExceeded, 1, 0⟩) (by decide) (by decide)
      (exec_xferT2p_of_not_fit hcap h)

/-- Settles O19: an RXP content that fits in TLB is copied there and the cursor rewound, and one that does not
raises. -/
theorem xferP2tCompletes : Obligations.XferP2tCompletes := by
  refine ⟨rfl, fun s => ⟨fun hfit => ?_, fun h => ?_⟩⟩
  · refine ⟨_, exec_xferP2t_of_fit hfit, storesOnly_congr rfl rfl (storesOnly_copyBuf s .rxp .tlb s.rxpLen),
      s.len_copyBuf .rxp .tlb s.rxpLen, rfl, ⟨rfl, rfl⟩, ?_⟩
    rw [State.copyBuf_eq_putLen_setBuf]
    rfl
  · exact raises_of_exec_eq (e := ⟨.capacityExceeded, 2, 0⟩) (by decide) (by decide)
      (exec_xferP2t_of_not_fit h)

/-- Settles O20: XFER.F2R checks nothing and copies the frame. -/
theorem xferF2rCompletes : Obligations.XferF2rCompletes := by
  refine ⟨rfl, fun s => ⟨_, exec_xferF2r s, storesOnly_congr rfl rfl (storesOnly_copyBuf s .txf .rxf s.txfLen),
    s.len_copyBuf .txf .rxf s.txfLen, ⟨rfl, rfl⟩, ?_⟩⟩
  rw [State.copyBuf_eq_putLen_setBuf]
  rfl

end Sys2Proof.Machine
end

section
/-!
The CRC commands (41_crc.md R134 to R136), and that the frame commands neither read nor write CRC_ACC (R137). For
the latter, every operation of the frame coder commutes with replacing CRC_ACC; both halves of R137 follow.
-/

namespace Sys2Proof.Machine

/-! ## CRC.INIT, CRC.UPD, CRC.UPDS -/

theorem decode_crcUpd (b : Byte) : decode (word 0x11 b) = .ok (.crcUpd b) := by
  simp [decode, opOf_word, argOf_word]

theorem exec_crcInit (s : State) : exec .crcInit s = .next ({ s with crcAcc := 0xFFFF } : State).done := rfl

theorem exec_crcUpd (b : Byte) (s : State) :
    exec (.crcUpd b) s = .next ({ s with crcAcc := crcStep s.crcAcc b } : State).done := rfl

section
variable {s : State}

theorem exec_crcUpds_of_fit (h : s.strLen.toNat ≤ s.params.strCap) :
    exec .crcUpds s = .next ({ s with crcAcc := crcFold s.crcAcc (Claims.strContent s) } : State).done := by
  rw [exec, execCrcUpds, raiseIf_bind, if_neg (by omega)]
  rfl

theorem exec_crcUpds_of_len_above_cap (h : s.params.strCap < s.strLen.toNat) :
    exec .crcUpds s = s.finish (.error ⟨.invalidOperand, 2, 0⟩) := by
  rw [exec, execCrcUpds, raiseIf_bind, if_pos h]

end

/-- Settles O13: each CRC command changes CRC_ACC alone and ends with `done`; CRC.UPDS raises instead when STR_LEN
is above the capacity. -/
theorem crcCommandsComplete : Obligations.CrcCommandsComplete := by
  refine ⟨rfl, decode_crcUpd, rfl, fun s =>
    ⟨exec_crcInit s, fun b => exec_crcUpd b s, exec_crcUpds_of_fit, fun h => ?_⟩⟩
  exact raises_of_exec_eq (e := ⟨.invalidOperand, 2, 0⟩) (by decide) (by decide) (exec_crcUpds_of_len_above_cap h)

/-! ## The ends of HDEC -/

section
variable {s : State}

theorem execHdec_of_len_above_cap (h : Config.frameCap < s.rxfLen.toNat) :
    execHdec s = .next (s.raise ⟨.invalidOperand, 4, 0⟩) :=
  if_pos h

theorem execHdec_of_parse_error {e : CmdError} (hcap : s.rxfLen.toNat ≤ Config.frameCap)
    (hp : hdecParse s.params s.llcRxSel s.rxFrame = .error e) : execHdec s = .next (s.clearRx.raise e) := by
  rw [execHdec, if_neg (by omega), hp]
  rfl

theorem execHdec_of_parse_ok {r : ParsedFrame} (hcap : s.rxfLen.toNat ≤ Config.frameCap)
    (hp : hdecParse s.params s.llcRxSel s.rxFrame = .ok r) : execHdec s = .next (s.putRx r).done := by
  rw [execHdec, if_neg (by omega), hp]
  rfl

end

/-! ## Replacing CRC_ACC -/

/-- The state with another value in CRC_ACC. -/
def State.putCrc (a : Word16) (s : State) : State := { s with crcAcc := a }

@[simp] theorem State.putCrc_crcAcc (a : Word16) (s : State) : (s.putCrc a).crcAcc = a := rfl

theorem State.putCrc_self (s : State) : s.putCrc s.crcAcc = s := rfl

section
variable (a : Word16) (s : State)

theorem State.len_putCrc (b : BufName) : (s.putCrc a).len b = s.len b := by cases b <;> rfl

theorem State.buf_putCrc (b : BufName) : (s.putCrc a).buf b = s.buf b := by cases b <;> rfl

theorem State.setBuf_putCrc (b : BufName) (x : Buf) : (s.putCrc a).setBuf b x = (s.setBuf b x).putCrc a := by
  cases b <;> rfl

theorem State.putLen_putCrc (b : BufName) (v : Word16) : (s.putCrc a).putLen b v = (s.putLen b v).putCrc a := by
  cases b <;> rfl

theorem State.writeBytes_putCrc (b : BufName) (i : Nat) (bs : List Byte) :
    (s.putCrc a).writeBytes b i bs = (s.writeBytes b i bs).putCrc a := by
  rw [State.writeBytes, State.buf_putCrc, State.setBuf_putCrc, State.writeBytes]

theorem State.setLen_putCrc (b : BufName) (v : Word16) : (s.putCrc a).setLen b v = (s.setLen b v).putCrc a := by
  simp only [State.setLen, State.len_putCrc, State.buf_putCrc, State.setBuf_putCrc, State.putLen_putCrc]
  split <;> rfl

/-- The end of a command does not depend on CRC_ACC. -/
theorem State.finish_putCrc (r : Except CmdError State) :
    (s.putCrc a).finish (State.putCrc a <$> r) = mapNext (State.putCrc a) (s.finish r) := by
  cases r <;> rfl

/-! ## The frame coder -/

/-- Neither the checks nor the frame read CRC_ACC, so the same frame is written. -/
theorem State.henc_putCrc (c : FrameCmd) : (s.putCrc a).henc c = State.putCrc a <$> s.henc c := by
  rw [State.henc, State.henc, map_bind]
  refine bind_congr fun na => ?_
  rw [map_bind]
  refine bind_congr fun _ => congrArg Except.ok ?_
  rw [State.writeBytes_putCrc, State.setLen_putCrc]
  rfl

theorem State.clearRx_putCrc : (s.putCrc a).clearRx = s.clearRx.putCrc a := by
  rw [State.clearRx, State.setLen_putCrc]
  rfl

theorem State.putRx_putCrc (r : ParsedFrame) : (s.putCrc a).putRx r = (s.putRx r).putCrc a := by
  rw [State.putRx, State.writeBytes_putCrc, State.setLen_putCrc]
  rfl

/-- RXF, the parameters and CFG decide how HDEC ends, and each end leaves CRC_ACC alone. -/
theorem execHdec_putCrc : execHdec (s.putCrc a) = mapNext (State.putCrc a) (execHdec s) := by
  obtain ⟨hcap, hx⟩ | ⟨hcap, ⟨e, hp, hx⟩ | ⟨r, hp, hx⟩⟩ := execHdec_cases s
  · rw [hx, execHdec_of_len_above_cap (s := s.putCrc a) hcap]
    rfl
  · rw [hx, execHdec_of_parse_error (s := s.putCrc a) hcap hp, State.clearRx_putCrc]
    rfl
  · rw [hx, execHdec_of_parse_ok (s := s.putCrc a) hcap hp, State.putRx_putCrc]
    rfl

end

/-! ## The frame commands -/

theorem isFrameCommand_cases {i : Instr} (h : Claims.isFrameCommand i = true) :
    i = .hdec ∨ ∃ c : FrameCmd, i = c.henc := by
  cases i with
  | hdec => exact .inl rfl
  | hencI => exact .inr ⟨.I, rfl⟩
  | hencRr => exact .inr ⟨.RR, rfl⟩
  | hencRnr => exact .inr ⟨.RNR, rfl⟩
  | hencSnrm => exact .inr ⟨.SNRM, rfl⟩
  | hencDisc => exact .inr ⟨.DISC, rfl⟩
  | hencUi => exact .inr ⟨.UI, rfl⟩
  | hencUa => exact .inr ⟨.UA, rfl⟩
  | hencDm => exact .inr ⟨.DM, rfl⟩
  | hencFrmr => exact .inr ⟨.FRMR, rfl⟩
  | _ => cases h

/-- The nine HENC commands are one operation (43_hdlc_encode.md R155 to R163). -/
theorem exec_henc (c : FrameCmd) (s : State) : exec c.henc s = s.finish (s.henc c) := by
  cases c <;> rfl

theorem exec_putCrc_of_isFrameCommand {i : Instr} (h : Claims.isFrameCommand i = true) (a : Word16) (s : State) :
    exec i (s.putCrc a) = mapNext (State.putCrc a) (exec i s) := by
  obtain rfl | ⟨c, rfl⟩ := isFrameCommand_cases h
  · exact execHdec_putCrc a s
  · rw [exec_henc, State.henc_putCrc, State.finish_putCrc, exec_henc]

/-- A command that commutes with every replacement of CRC_ACC leaves it: replacing it by its own value changes
nothing before the command, and so nothing after it. -/
theorem crcAcc_eq_of_exec_putCrc {i : Instr} {s t : State}
    (h : exec i (s.putCrc s.crcAcc) = mapNext (State.putCrc s.crcAcc) (exec i s)) (ht : exec i s = .next t) :
    t.crcAcc = s.crcAcc := by
  rw [s.putCrc_self, ht] at h
  have hkeep : t = t.putCrc s.crcAcc := Host.Outcome.next.inj h
  rw [hkeep, State.putCrc_crcAcc]

/-- Settles O60: a frame command commutes with replacing CRC_ACC, and therefore leaves it unchanged. -/
theorem crcUnitAndFramesDoNotInterfere : Obligations.CrcUnitAndFramesDoNotInterfere := fun _ s a h =>
  ⟨exec_putCrc_of_isFrameCommand h a s, fun _ => crcAcc_eq_of_exec_putCrc (exec_putCrc_of_isFrameCommand h _ s)⟩

end Sys2Proof.Machine
end

section
/-!
The sequence commands (42_seq.md R141 to R143): each changes its own counters and ends with `done`. The model counts
in 3-bit words, the rules count modulo 8; `increment_eq_mod_eight` says that the two agree.
-/

namespace Sys2Proof.Machine

/-- Counting in three bits is counting modulo 8 (42_seq.md R142, R143). -/
theorem increment_eq_mod_eight (x : BitVec 3) : x + 1 = BitVec.ofNat 3 ((x.toNat + 1) % 8) :=
  BitVec.eq_of_toNat_eq (by simp [BitVec.toNat_add])

theorem exec_seqReset (s : State) : exec .seqReset s = .next ({ s with sss := 0, rrr := 0 } : State).done := rfl

theorem exec_seqTxdone (s : State) :
    exec .seqTxdone s = .next ({ s with sss := BitVec.ofNat 3 ((s.sss.toNat + 1) % 8) } : State).done := by
  rw [← increment_eq_mod_eight]
  rfl

theorem exec_seqRxdone (s : State) :
    exec .seqRxdone s = .next ({ s with rrr := BitVec.ofNat 3 ((s.rrr.toNat + 1) % 8) } : State).done := by
  rw [← increment_eq_mod_eight]
  rfl

/-- Settles O12: the three words decode by their rows, and each command is the equation above for it. -/
theorem sequenceCommandsComplete : Obligations.SequenceCommandsComplete :=
  ⟨rfl, rfl, rfl, fun s => ⟨exec_seqReset s, exec_seqTxdone s, exec_seqRxdone s⟩⟩

end Sys2Proof.Machine
end

section
/-!
The frame encoder as a whole (43_hdlc_encode.md): the errors of HENC in the order tested (R153), and that HENC is one
store of a frame that its operands alone decide (R151).
-/

namespace Sys2Proof.Machine

/-! ## The checks that fail, in the order tested -/

section
variable {s : State} {c : FrameCmd} {na : Nat}

theorem State.hencChecks_of_payload_above_cap (h : s.params.payCap < s.txpLen.toNat) :
    s.hencChecks = .error ⟨.invalidOperand, 3, 0⟩ := by
  rw [State.hencChecks, raiseIf_bind, if_pos h]

theorem alenBytes_of_reserved {a : BitVec 2} (h : a = 3) : alenBytes a = none := by
  rw [h]
  rfl

theorem State.hencChecks_of_reserved_alen (hpay : s.txpLen.toNat ≤ s.params.payCap) (h : s.srvAlen = 3) :
    s.hencChecks = .error ⟨.invalidOperand, 5, 0⟩ := by
  rw [State.hencChecks, raiseIf_bind, if_neg (by omega), alenBytes_of_reserved h]

theorem State.hencChecks_of_client_too_large (hpay : s.txpLen.toNat ≤ s.params.payCap)
    (ha : alenBytes s.srvAlen = some na) (h : 0x7F < s.clientAddr.toNat) :
    s.hencChecks = .error ⟨.invalidOperand, 6, 0⟩ := by
  rw [State.hencChecks, raiseIf_bind, if_neg (by omega), ha]
  simp only [raiseIf_bind, if_pos h]

theorem State.hencChecks_of_log_too_large (hpay : s.txpLen.toNat ≤ s.params.payCap)
    (ha : alenBytes s.srvAlen = some na) (hclient : s.clientAddr.toNat ≤ 0x7F) (h : maxLog na < s.srvLog.toNat) :
    s.hencChecks = .error ⟨.invalidOperand, 7, 0⟩ := by
  rw [State.hencChecks, raiseIf_bind, if_neg (by omega), ha]
  simp only [raiseIf_bind, if_neg hclient.not_gt, if_pos h]

theorem State.hencChecks_of_phy_too_large (hpay : s.txpLen.toNat ≤ s.params.payCap)
    (ha : alenBytes s.srvAlen = some na) (hclient : s.clientAddr.toNat ≤ 0x7F) (hlog : s.srvLog.toNat ≤ maxLog na)
    (h : maxPhy na < s.srvPhy.toNat) : s.hencChecks = .error ⟨.invalidOperand, 8, 0⟩ := by
  rw [State.hencChecks, raiseIf_bind, if_neg (by omega), ha]
  simp only [raiseIf_bind, if_neg hclient.not_gt, if_neg hlog.not_gt, if_pos h]

theorem State.henc_of_checks_error {e : CmdError} (h : s.hencChecks = .error e) : s.henc c = .error e := by
  rw [State.henc, h]
  rfl

theorem State.henc_of_frame_too_long (hchecks : s.hencChecks = .ok na)
    (h : 0xFFF < frameLen na (s.txInfo c).length) : s.henc c = .error ⟨.capacityExceeded, 3, 0⟩ := by
  rw [State.henc, hchecks]
  exact (raiseIf_bind _ _ _).trans (if_pos h)

/-- The information field is the payload, with the LLC header before it in an I frame (30_encoding.md R98). -/
theorem State.length_txInfo (s : State) (c : FrameCmd) :
    (s.txInfo c).length = (if c = .I then 3 else 0) + s.txpLen.toNat := by
  rw [State.txInfo, List.length_append, State.length_readBytes]
  split <;> rfl

/-- An error of `henc(c)` is how the command ends. -/
theorem raises_of_henc_error {e : CmdError} (hsub : e.sub < 256) (hoff : e.off < 65536) (h : s.henc c = .error e) :
    Claims.raises c.henc s e.code.num e.sub e.off :=
  raises_of_exec_eq hsub hoff (by rw [exec_henc, h])

/-- Orders 1 to 5 of 43_hdlc_encode.md R153 are `invalidOperand` errors of the checks. -/
theorem raises_of_hencChecks_error {sub : Nat} (hsub : sub < 256)
    (h : s.hencChecks = .error ⟨.invalidOperand, sub, 0⟩) : Claims.raises c.henc s 9 sub 0 :=
  raises_of_henc_error hsub (by decide : 0 < 65536) (State.henc_of_checks_error h)

end

/-- Settles O22: each operand error is the first check that fails, and the length error comes after all of them. -/
theorem hencErrorsInOrder : Obligations.HencErrorsInOrder := by
  intro c s
  refine ⟨fun h => raises_of_hencChecks_error (by decide) (State.hencChecks_of_payload_above_cap h), fun hpay =>
    ⟨fun h => raises_of_hencChecks_error (by decide) (State.hencChecks_of_reserved_alen hpay h), fun na ha => ?_⟩⟩
  refine ⟨fun h => raises_of_hencChecks_error (by decide) (State.hencChecks_of_client_too_large hpay ha h), fun hcl =>
    ⟨fun h => raises_of_hencChecks_error (by decide) (State.hencChecks_of_log_too_large hpay ha hcl h), fun hlog =>
      ⟨fun h => raises_of_hencChecks_error (by decide) (State.hencChecks_of_phy_too_large hpay ha hcl hlog h),
        fun hphy => ?_⟩⟩⟩
  intro ni h
  have hchecks : s.hencChecks = .ok na := State.hencChecks_eq_ok.mpr ⟨hpay, ha, hcl, hlog, hphy⟩
  have hlong : 0xFFF < frameLen na (s.txInfo c).length := by rwa [State.length_txInfo]
  exact raises_of_henc_error (e := ⟨.capacityExceeded, 3, 0⟩) (by decide) (by decide)
    (State.henc_of_frame_too_long hchecks hlong)

/-! ## HENC stores one frame -/

/-- The frame that `henc(c)` builds, or the error that stops it (43_hdlc_encode.md R152, R153). -/
def State.hencFrame (s : State) (c : FrameCmd) : Except CmdError (List Byte) := do
  let na ← s.hencChecks
  raiseIf (0xFFF < frameLen na (s.txInfo c).length) ⟨.capacityExceeded, 3, 0⟩
  return s.txFrame c na

/-- TXF with a frame from its first byte on, and TXF_LEN with the frame's length. -/
def State.storeFrame (s : State) (F : List Byte) : State :=
  (s.writeBytes .txf 0 F).setLen .txf (BitVec.ofNat 16 F.length)

section
variable {s s' t : State} {c : FrameCmd} {na : Nat} {F : List Byte}

theorem length_serverBytes (L P : Word16) (h : na = 1 ∨ na = 2 ∨ na = 4) : (serverBytes L P na).length = na := by
  obtain rfl | rfl | rfl := h <;> rfl

theorem State.length_txFrame (h : s.hencChecks = .ok na) :
    (s.txFrame c na).length = frameLen na (s.txInfo c).length + 2 := by
  obtain ⟨-, ha, -, -, -⟩ := State.hencChecks_eq_ok.mp h
  refine length_frameOf _ na _ _ _ ?_
  rw [List.length_append, length_serverBytes _ _ (alenBytes_cases ha), List.length_singleton]

/-- `hencFrame` and `storeFrame` are the two halves of `henc(c)`. -/
theorem State.henc_eq_storeFrame (s : State) (c : FrameCmd) : s.henc c = s.storeFrame <$> s.hencFrame c := by
  rw [State.henc, State.hencFrame, map_bind]
  cases hchecks : s.hencChecks with
  | error e => rfl
  | ok na =>
    have hstore : s.storeFrame (s.txFrame c na)
        = (s.writeBytes .txf 0 (s.txFrame c na)).setLen .txf
            (BitVec.ofNat 16 (frameLen na (s.txInfo c).length + 2)) := by
      rw [State.storeFrame, State.length_txFrame hchecks]
    change _ = s.storeFrame <$> (raiseIf _ _ >>= fun _ => pure (s.txFrame c na))
    rw [map_bind]
    exact bind_congr fun _ => congrArg Except.ok hstore.symm

/-- HENC stores its frame and ends with `done`, or raises from where it started. -/
theorem exec_henc_cases (h : exec c.henc s = .next t) :
    (∃ F, s.hencFrame c = .ok F ∧ t = (s.storeFrame F).done) ∨ ∃ e, s.hencFrame c = .error e ∧ t = s.raise e := by
  rw [exec_henc, State.henc_eq_storeFrame] at h
  cases hF : s.hencFrame c with
  | error e =>
    rw [hF] at h
    exact .inr ⟨e, rfl, (Host.Outcome.next.inj h).symm⟩
  | ok F =>
    rw [hF] at h
    exact .inl ⟨F, rfl, (Host.Outcome.next.inj h).symm⟩

/-- Storing a frame replaces TXF and TXF_LEN, and no other field. -/
theorem State.storeFrame_eq_with (s : State) (F : List Byte) :
    s.storeFrame F = { s with txf := (s.storeFrame F).txf, txfLen := BitVec.ofNat 16 F.length } := by
  rw [State.storeFrame, State.setLen]
  split <;> rfl

theorem State.storeFrame_txfLen (s : State) (F : List Byte) : (s.storeFrame F).txfLen = BitVec.ofNat 16 F.length :=
  State.len_setLen _ .txf _

/-- Every byte below TXF_LEN is the frame's. -/
theorem State.byteAt_storeFrame {k : Nat} (h : k < (s.storeFrame F).txfLen.toNat) :
    (s.storeFrame F).byteAt .txf k = byteOf F k := by
  rw [State.storeFrame_txfLen] at h
  have hk : k < F.length := h.trans_le (BitVec.toNat_ofNat _ _ ▸ Nat.mod_le _ _)
  have hF : F[k]? = some (byteOf F k) := by rw [byteOf, List.getD_eq_getElem?_getD, List.getElem?_eq_getElem hk]; rfl
  have hstored := State.get?_writeBytes (b := .txf) (s := s) (i := 0) hF
  rw [Nat.zero_add] at hstored
  exact Buf.byteAt_of_get? ((State.get?_setLen_of_lt h).trans hstored) .txf

/-! ## The operands of HENC -/

/-- Two states hold the same operands of `henc(c)` (43_hdlc_encode.md R150): only an I frame carries SSS and RRR. -/
structure HencOperandsAgree (c : FrameCmd) (s' s : State) : Prop where
  params : s'.params = s.params
  srvAlen : s'.srvAlen = s.srvAlen
  clientAddr : s'.clientAddr = s.clientAddr
  srvLog : s'.srvLog = s.srvLog
  srvPhy : s'.srvPhy = s.srvPhy
  txpLen : s'.txpLen = s.txpLen
  payload : ∀ k, k < s.txpLen.toNat → s'.byteAt .txp k = s.byteAt .txp k
  counters : c = .I → s'.sss = s.sss ∧ s'.rrr = s.rrr

namespace HencOperandsAgree

theorem hencChecks_eq (h : HencOperandsAgree c s' s) : s'.hencChecks = s.hencChecks := by
  simp only [State.hencChecks, h.params, h.srvAlen, h.clientAddr, h.srvLog, h.srvPhy, h.txpLen]

theorem txInfo_eq (h : HencOperandsAgree c s' s) : s'.txInfo c = s.txInfo c := by
  have hread : s'.readBytes .txp 0 s.txpLen.toNat = s.readBytes .txp 0 s.txpLen.toNat :=
    State.readBytes_congr fun k hk => by rw [Nat.zero_add]; exact h.payload k hk
  rw [State.txInfo, State.txInfo, h.txpLen, hread]

/-- Only the control byte of an I frame holds the counters (30_encoding.md R95). -/
theorem controlByte_eq (h : HencOperandsAgree c s' s) :
    controlByte s'.params.tags c s'.sss s'.rrr = controlByte s.params.tags c s.sss s.rrr := by
  rw [h.params]
  cases c with
  | I =>
    obtain ⟨hsss, hrrr⟩ := h.counters rfl
    rw [hsss, hrrr]
  | _ => rfl

theorem txFrame_eq (h : HencOperandsAgree c s' s) (na : Nat) : s'.txFrame c na = s.txFrame c na := by
  rw [State.txFrame, State.txFrame, h.txInfo_eq, h.controlByte_eq, h.srvLog, h.srvPhy, h.clientAddr]

/-- The operands decide the frame, and the error. -/
theorem hencFrame_eq (h : HencOperandsAgree c s' s) : s'.hencFrame c = s.hencFrame c := by
  simp only [State.hencFrame, h.hencChecks_eq, h.txInfo_eq, h.txFrame_eq]

end HencOperandsAgree

/-! ## Purity -/

/-- What HENC writes (43_hdlc_encode.md R151). -/
theorem exec_henc_frame (h : exec c.henc s = .next t) :
    { t with txf := s.txf, txfLen := s.txfLen, status := s.status, errinfo := s.errinfo,
             errsticky := s.errsticky } = s
    ∧ (t.status = 0 → t.errsticky = s.errsticky) ∧ (t.status ≠ 0 → t.txf = s.txf ∧ t.txfLen = s.txfLen) := by
  obtain ⟨F, -, rfl⟩ | ⟨e, -, rfl⟩ := exec_henc_cases h
  · rw [State.storeFrame_eq_with]
    exact ⟨rfl, fun _ => rfl, fun hne => absurd rfl hne⟩
  · exact ⟨rfl, fun h0 => absurd h0 e.statusWord_ne_zero, fun _ => ⟨rfl, rfl⟩⟩

/-- Two HENC commands that build the same frame, or meet the same error, end the same way (43_hdlc_encode.md R151). -/
theorem exec_henc_ends_of_hencFrame_eq {t' : State} (hF : s'.hencFrame c = s.hencFrame c)
    (ht : exec c.henc s = .next t) (ht' : exec c.henc s' = .next t') :
    t'.status = t.status ∧ t'.errinfo = t.errinfo
      ∧ (t.status = 0 → t'.txfLen = t.txfLen
          ∧ ∀ k, k < t.txfLen.toNat → t'.byteAt .txf k = t.byteAt .txf k) := by
  obtain ⟨F, hs, rfl⟩ | ⟨e, hs, rfl⟩ := exec_henc_cases ht <;>
    obtain ⟨F', hs', rfl⟩ | ⟨e', hs', rfl⟩ := exec_henc_cases ht' <;>
    cases hs'.symm.trans (hF.trans hs)
  · have hlen : (s'.storeFrame F).txfLen = (s.storeFrame F).txfLen := by simp only [State.storeFrame_txfLen]
    refine ⟨rfl, rfl, fun _ => ⟨hlen, fun k hk => ?_⟩⟩
    exact (State.byteAt_storeFrame (hlen ▸ hk)).trans (State.byteAt_storeFrame hk).symm
  · exact ⟨rfl, rfl, fun h0 => absurd h0 e.statusWord_ne_zero⟩

end

/-- Settles O23: HENC stores one frame or raises, and its operands decide which frame and which error. -/
theorem hencIsPure : Obligations.HencIsPure := by
  intro c s t ht
  obtain ⟨hkeep, hsticky, htxf⟩ := exec_henc_frame ht
  refine ⟨hkeep, hsticky, htxf, fun s' t' ht' hparams halen hclient hlog hphy hlen hpay hcount => ?_⟩
  have hops : HencOperandsAgree c s' s := ⟨hparams, halen, hclient, hlog, hphy, hlen, hpay, hcount⟩
  exact exec_henc_ends_of_hencFrame_eq hops.hencFrame_eq ht ht'

end Sys2Proof.Machine
end

section
/-!
The raw byte and length field commands of the TLV cursor (45_tlv_cursor.md R197 to R200): the number a byte sequence
stands for, each end of `rsize_at` (R194), and the statements about TLV.PUTB, TLV.WSIZE, TLV.GETB and TLV.RSIZE.
-/

namespace Sys2Proof.Machine

/-! ## The number of a byte sequence -/

theorem ofBe_concat (bs : List Byte) (b : Byte) : ofBe (bs ++ [b]) = ofBe bs * 256 + b.toNat := by
  rw [ofBe, List.foldl_concat, ofBe]

/-- A number of `n` bytes has `8 n` bits. -/
theorem ofBe_lt (bs : List Byte) : ofBe bs < 2 ^ (8 * bs.length) := by
  induction bs using List.reverseRecOn with
  | nil => decide
  | append_singleton bs b ih =>
    rw [ofBe_concat, List.length_append, List.length_singleton, Nat.mul_add, Nat.pow_add]
    omega

/-- The bytes are the digits of the number in base 256, the most significant first (20_memory.md R64). -/
theorem ofBe_div_pow_mod (bs : List Byte) {j : Nat} (hj : j < bs.length) :
    ofBe bs / 256 ^ (bs.length - 1 - j) % 256 = bs[j].toNat := by
  induction bs using List.reverseRecOn with
  | nil => contradiction
  | append_singleton bs b ih =>
    rw [List.length_append, List.length_singleton] at hj
    simp only [ofBe_concat, List.length_append, List.length_singleton, Nat.add_sub_cancel]
    obtain hlt | rfl : j < bs.length ∨ j = bs.length := by omega
    · have hdrop : (ofBe bs * 256 + b.toNat) / 256 = ofBe bs := by omega
      rw [show bs.length - j = bs.length - 1 - j + 1 by omega, Nat.pow_succ', ← Nat.div_div_eq_div_mul, hdrop, ih hlt,
        List.getElem_append_left hlt]
    · rw [Nat.sub_self, List.getElem_concat_length rfl]
      omega

/-- A byte zero-extended to VAL (30_encoding.md R82). -/
theorem zext64_toNat (b : Byte) : zext64 b.toNat = b.setWidth 64 := BitVec.ofNat_toNat 64 b

/-- A number of at most eight bytes fits in VAL. -/
theorem toNat_zext64_ofBe {bs : List Byte} (h : bs.length ≤ 8) : (zext64 (ofBe bs)).toNat = ofBe bs :=
  Nat.mod_eq_of_lt ((ofBe_lt bs).trans_le (Nat.pow_le_pow_right (by decide) (by omega)))

/-- VAL holds the bytes of such a number in order, the last in bits 7:0. -/
theorem extractLsb'_zext64_ofBe {bs : List Byte} (h : bs.length ≤ 8) {j : Nat} (hj : j < bs.length) :
    (zext64 (ofBe bs)).extractLsb' (8 * (bs.length - 1 - j)) 8 = bs[j] := by
  apply BitVec.eq_of_toNat_eq
  rw [BitVec.extractLsb'_toNat, toNat_zext64_ofBe h, Nat.shiftRight_eq_div_pow, Nat.pow_mul]
  exact ofBe_div_pow_mod bs hj

/-! ## The ends of rsize_at -/

section
variable {s : State} {q : Nat}

theorem State.need_of_missing {sub : Nat} (h : s.tlbLen.toNat < q) :
    s.need q sub = .error ⟨.unexpectedEndOfData, sub, s.tlbCur.toNat⟩ := if_pos h

theorem State.rsizeAt_of_no_byte (h : s.tlbLen.toNat ≤ q) :
    s.rsizeAt q = .error ⟨.unexpectedEndOfData, 2, s.tlbCur.toNat⟩ := by
  rw [State.rsizeAt, State.need_of_missing (by omega)]
  rfl

/-- Past its first byte, `rsize_at` goes by that byte. -/
theorem State.rsizeAt_of_lt (h : q < s.tlbLen.toNat) :
    s.rsizeAt q = if (s.tlbAt q).toNat ≤ 0x80 then .ok ((s.tlbAt q).toNat, 1)
      else if 0x85 ≤ (s.tlbAt q).toNat then .error ⟨.malformedLength, 0, q⟩
      else s.need (q + 1 + ((s.tlbAt q).toNat - 0x80)) 2 >>= fun _ =>
        .ok (ofBe (s.readBytes .tlb (q + 1) ((s.tlbAt q).toNat - 0x80)), 1 + ((s.tlbAt q).toNat - 0x80)) := by
  rw [State.rsizeAt, State.need_eq_ok (u := ()) |>.mpr h]
  exact if_congr Iff.rfl rfl (raiseIf_bind _ _ _)

theorem State.rsizeAt_short (hq : q < s.tlbLen.toNat) (h : (s.tlbAt q).toNat ≤ 0x80) :
    s.rsizeAt q = .ok ((s.tlbAt q).toNat, 1) := by
  rw [State.rsizeAt_of_lt hq, if_pos h]

theorem State.rsizeAt_of_malformed (hq : q < s.tlbLen.toNat) (h : 0x85 ≤ (s.tlbAt q).toNat) :
    s.rsizeAt q = .error ⟨.malformedLength, 0, q⟩ := by
  rw [State.rsizeAt_of_lt hq, if_neg (by omega), if_pos h]

/-- A first byte of `0x80 + k` announces `k` length bytes (30_encoding.md R102). -/
theorem State.rsizeAt_long {k : Nat} (hq : q < s.tlbLen.toNat) (hk : 1 ≤ k) (hk' : k ≤ 4)
    (h : (s.tlbAt q).toNat = 0x80 + k) :
    s.rsizeAt q = s.need (q + 1 + k) 2 >>= fun _ => .ok (ofBe (s.readBytes .tlb (q + 1) k), 1 + k) := by
  rw [State.rsizeAt_of_lt hq, if_neg (by omega), if_neg (by omega), h, Nat.add_sub_cancel_left]

theorem State.rsizeAt_of_long_missing {k : Nat} (hq : q < s.tlbLen.toNat) (hk : 1 ≤ k) (hk' : k ≤ 4)
    (h : (s.tlbAt q).toNat = 0x80 + k) (hend : s.tlbLen.toNat < q + 1 + k) :
    s.rsizeAt q = .error ⟨.unexpectedEndOfData, 2, s.tlbCur.toNat⟩ := by
  rw [State.rsizeAt_long hq hk hk' h, State.need_of_missing hend]
  rfl

theorem State.rsizeAt_of_long {k : Nat} (hk : 1 ≤ k) (hk' : k ≤ 4) (h : (s.tlbAt q).toNat = 0x80 + k)
    (hend : q + 1 + k ≤ s.tlbLen.toNat) : s.rsizeAt q = .ok (ofBe (s.readBytes .tlb (q + 1) k), 1 + k) := by
  rw [State.rsizeAt_long (by omega) hk hk' h, State.need_eq_ok (u := ()) |>.mpr hend]
  rfl

end

/-! ## The commands -/

theorem decode_tlvPutb (b : Byte) : decode (word 0x44 b) = .ok (.tlvPutb b) := by
  simp [decode, opOf_word, argOf_word]

theorem exec_tlvPutb (b : Byte) (s : State) : exec (.tlvPutb b) s = s.finish (s.append [b]) := rfl

theorem State.count_eq_mod (s : State) : s.count = s.val.toNat % 2 ^ 32 := BitVec.extractLsb'_toNat 0 32 s.val

theorem exec_tlvWsize (s : State) : exec .tlvWsize s = s.finish (s.append (wsize (s.val.toNat % 2 ^ 32))) := by
  rw [← State.count_eq_mod]
  rfl

/-- The cursor after one byte. -/
theorem State.putVal_cursor_succ (s : State) (v : Word64) :
    s.putVal v (s.tlbCur.toNat + 1) = { s with val := v, tlbCur := s.tlbCur + 1 } := by
  rw [State.putVal, BitVec.ofNat_add, BitVec.ofNat_toNat, BitVec.setWidth_eq]
  rfl

section
variable {s : State}

theorem State.tlbCheck_of_len_above_cap (h : s.params.tlbCap < s.tlbLen.toNat) :
    s.tlbCheck = .error ⟨.invalidOperand, 1, 0⟩ := if_pos h

theorem State.tlbCheck_of_len_le_cap (h : s.tlbLen.toNat ≤ s.params.tlbCap) : s.tlbCheck = .ok () :=
  if_neg (by omega)

theorem exec_tlvGetb_of_len_above_cap (h : s.params.tlbCap < s.tlbLen.toNat) :
    exec .tlvGetb s = s.finish (.error ⟨.invalidOperand, 1, 0⟩) := by
  rw [exec, execTlvGetb, State.tlbCheck_of_len_above_cap h]
  rfl

/-- TLV.GETB past its operand check. -/
theorem exec_tlvGetb_of_len_le_cap (h : s.tlbLen.toNat ≤ s.params.tlbCap) :
    exec .tlvGetb s = s.finish (if s.tlbLen.toNat ≤ s.tlbCur.toNat
      then .error ⟨.unexpectedEndOfData, 1, s.tlbCur.toNat⟩
      else .ok (s.putVal (zext64 (s.tlbAt s.tlbCur.toNat).toNat) (s.tlbCur.toNat + 1))) := by
  rw [exec, execTlvGetb, State.tlbCheck_of_len_le_cap h]
  exact congrArg s.finish (raiseIf_bind _ _ _)

theorem exec_tlvGetb_of_no_byte (h : s.tlbLen.toNat ≤ s.params.tlbCap) (hend : s.tlbLen ≤ s.tlbCur) :
    exec .tlvGetb s = s.finish (.error ⟨.unexpectedEndOfData, 1, s.tlbCur.toNat⟩) := by
  rw [exec_tlvGetb_of_len_le_cap h, if_pos (BitVec.le_def.mp hend)]

theorem exec_tlvGetb_of_byte (h : s.tlbLen.toNat ≤ s.params.tlbCap) (hcur : s.tlbCur < s.tlbLen) :
    exec .tlvGetb s = .next ({ s with
      val := (s.byteAt .tlb s.tlbCur.toNat).setWidth 64, tlbCur := s.tlbCur + 1 } : State).done := by
  rw [exec_tlvGetb_of_len_le_cap h, if_neg (Nat.not_le.mpr (BitVec.lt_def.mp hcur)), State.putVal_cursor_succ,
    zext64_toNat]
  rfl

theorem exec_tlvRsize_of_len_above_cap (h : s.params.tlbCap < s.tlbLen.toNat) :
    exec .tlvRsize s = s.finish (.error ⟨.invalidOperand, 1, 0⟩) := by
  rw [exec, execTlvRsize, State.tlbCheck_of_len_above_cap h]
  rfl

theorem exec_tlvRsize_of_rsizeAt_error {e : CmdError} (h : s.tlbLen.toNat ≤ s.params.tlbCap)
    (hr : s.rsizeAt s.tlbCur.toNat = .error e) : exec .tlvRsize s = s.finish (.error e) := by
  simp only [exec, execTlvRsize, State.tlbCheck_of_len_le_cap h, hr]
  rfl

theorem exec_tlvRsize_of_rsizeAt_ok {n k : Nat} (h : s.tlbLen.toNat ≤ s.params.tlbCap)
    (hr : s.rsizeAt s.tlbCur.toNat = .ok (n, k)) :
    exec .tlvRsize s = .next (s.putVal (zext64 n) (s.tlbCur.toNat + k)).done := by
  simp only [exec, execTlvRsize, State.tlbCheck_of_len_le_cap h, hr]
  rfl

/-- The short form: VAL gets the byte and the cursor passes it. -/
theorem exec_tlvRsize_of_short (h : s.tlbLen.toNat ≤ s.params.tlbCap) (hcur : s.tlbCur.toNat < s.tlbLen.toNat)
    (hb : (s.byteAt .tlb s.tlbCur.toNat).toNat ≤ 0x80) :
    exec .tlvRsize s = .next ({ s with
      val := (s.byteAt .tlb s.tlbCur.toNat).setWidth 64, tlbCur := s.tlbCur + 1 } : State).done := by
  rw [exec_tlvRsize_of_rsizeAt_ok h (State.rsizeAt_short hcur hb), State.putVal_cursor_succ, zext64_toNat]
  rfl

/-- The long form: VAL gets the number of the `k` length bytes and the cursor passes them. -/
theorem exec_tlvRsize_of_long {k : Nat} (h : s.tlbLen.toNat ≤ s.params.tlbCap) (hk : 1 ≤ k) (hk' : k ≤ 4)
    (hb : (s.byteAt .tlb s.tlbCur.toNat).toNat = 0x80 + k) (hend : s.tlbCur.toNat + 1 + k ≤ s.tlbLen.toNat) :
    exec .tlvRsize s = .next (s.putVal (zext64 (ofBe (s.readBytes .tlb (s.tlbCur.toNat + 1) k)))
      (s.tlbCur.toNat + 1 + k)).done := by
  rw [exec_tlvRsize_of_rsizeAt_ok h (State.rsizeAt_of_long hk hk' hb hend), ← Nat.add_assoc]

/-- An error of `rsize_at` is how TLV.RSIZE ends; the offset reported is the cursor in each. -/
theorem raises_of_rsizeAt_error {c : ErrCode} {sub : Nat} (hsub : sub < 256) (h : s.tlbLen.toNat ≤ s.params.tlbCap)
    (hr : s.rsizeAt s.tlbCur.toNat = .error ⟨c, sub, s.tlbCur.toNat⟩) :
    Claims.raises .tlvRsize s c.num sub s.tlbCur.toNat :=
  raises_of_exec_eq hsub s.tlbCur.isLt (exec_tlvRsize_of_rsizeAt_error h hr)

end

/-- A byte of VAL after the number of up to eight bytes of a buffer is put there. -/
theorem extractLsb'_zext64_ofBe_readBytes (s : State) (b : BufName) (i : Nat) {k j : Nat} (hk : k ≤ 8) (hj : j < k) :
    (zext64 (ofBe (s.readBytes b i k))).extractLsb' (8 * (k - 1 - j)) 8 = s.byteAt b (i + j) := by
  have hbyte := extractLsb'_zext64_ofBe (bs := s.readBytes b i k) (j := j) (by simpa) (by simpa)
  simp only [State.length_readBytes] at hbyte
  rw [hbyte]
  simp [State.readBytes]

/-- Settles O37: TLV.PUTB ends with `append` of its immediate byte. -/
theorem tlvPutbAppends : Obligations.TlvPutbAppends :=
  ⟨decode_tlvPutb, fun b s hwf => appendsOrRaises_of_exec_eq hwf (exec_tlvPutb b s)⟩

/-- Settles O38: TLV.WSIZE ends with `append` of the length field, and the boundary values are evaluated. -/
theorem tlvWsizeAppends : Obligations.TlvWsizeAppends :=
  ⟨rfl, fun s hwf => appendsOrRaises_of_exec_eq hwf (exec_tlvWsize s), by decide⟩

/-- Settles O39: TLV.GETB meets its operand check, then the end of the data, then takes the byte. -/
theorem tlvGetbCompletes : Obligations.TlvGetbCompletes := by
  refine ⟨rfl, fun s => ⟨exec_tlvGetb_of_byte, fun h => ?_, fun h hend => ?_⟩⟩
  · exact raises_of_exec_eq (e := ⟨.invalidOperand, 1, 0⟩) (by decide) (by decide) (exec_tlvGetb_of_len_above_cap h)
  · exact raises_of_exec_eq (e := ⟨.unexpectedEndOfData, 1, s.tlbCur.toNat⟩) (by decide : 1 < 256) s.tlbCur.isLt
      (exec_tlvGetb_of_no_byte h hend)

/-- Settles O40: after the operand check TLV.RSIZE ends as `rsize_at` at the cursor does, one clause for each of the
ends above. -/
theorem tlvRsizeCompletes : Obligations.TlvRsizeCompletes := by
  refine ⟨rfl, fun s => ⟨fun h => ?_, fun hcap => ⟨fun hend => ?_, fun hcur =>
    ⟨exec_tlvRsize_of_short hcap hcur, fun hb => ?_, fun k hk hk' hb => ⟨fun hend => ?_, fun hend => ?_⟩⟩⟩⟩⟩
  · exact raises_of_exec_eq (e := ⟨.invalidOperand, 1, 0⟩) (by decide) (by decide) (exec_tlvRsize_of_len_above_cap h)
  · exact raises_of_rsizeAt_error (c := .unexpectedEndOfData) (by decide) hcap (State.rsizeAt_of_no_byte hend)
  · exact raises_of_rsizeAt_error (c := .malformedLength) (by decide) hcap (State.rsizeAt_of_malformed hcur hb)
  · exact raises_of_rsizeAt_error (c := .unexpectedEndOfData) (by decide) hcap
      (State.rsizeAt_of_long_missing hcur hk hk' hb hend)
  · have hlen : (s.readBytes .tlb (s.tlbCur.toNat + 1) k).length = k := by simp
    refine ⟨_, exec_tlvRsize_of_long hcap hk hk' hb hend, ⟨rfl, rfl⟩, ?_, ?_, fun j hj => ?_, rfl⟩
    · exact Nat.mod_eq_of_lt (by omega)
    · change (zext64 _).toNat < _
      rw [toNat_zext64_ofBe (by omega)]
      exact (ofBe_lt _).trans_eq (by rw [hlen])
    · exact extractLsb'_zext64_ofBe_readBytes s .tlb _ (by omega) hj

end Sys2Proof.Machine
end

section
/-!
The TLV decode commands (47_tlv_decode.md): the three forms of a TLV.DEC, each end of `dec_open` (45_tlv_cursor.md
R193), the check that fails in each form past it, and the statement about the errors in the order tested (R258).
-/

namespace Sys2Proof.Machine

/-- A part of a command that succeeds hands its result to the rest. -/
theorem ok_bind {α β : Type} (a : α) (f : α → Except CmdError β) : (Except.ok a >>= f) = f a := rfl

/-! ## The ends of dec_open -/

section
variable {s : State} {tag : Byte}

theorem State.decOpen_of_len_above_cap (h : s.params.tlbCap < s.tlbLen.toNat) :
    s.decOpen tag = .error ⟨.invalidOperand, 1, 0⟩ := by
  rw [State.decOpen, State.tlbCheck_of_len_above_cap h]
  rfl

/-- Past its operand check, `dec_open` goes by the byte at the cursor. -/
theorem State.decOpen_of_len_le_cap (h : s.tlbLen.toNat ≤ s.params.tlbCap) :
    s.decOpen tag = if s.tlbLen.toNat ≤ s.tlbCur.toNat then .error ⟨.unexpectedEndOfData, 1, s.tlbCur.toNat⟩
      else if s.tlbAt s.tlbCur.toNat ≠ tag then .error ⟨.tagMismatch, 0, s.tlbCur.toNat⟩
      else .ok s.tlbCur.toNat := by
  rw [State.decOpen, State.tlbCheck_of_len_le_cap h]
  exact (raiseIf_bind _ _ _).trans (if_congr Iff.rfl rfl (raiseIf_bind _ _ _))

theorem State.decOpen_of_no_byte (h : s.tlbLen.toNat ≤ s.params.tlbCap) (hend : s.tlbLen.toNat ≤ s.tlbCur.toNat) :
    s.decOpen tag = .error ⟨.unexpectedEndOfData, 1, s.tlbCur.toNat⟩ := by
  rw [State.decOpen_of_len_le_cap h, if_pos hend]

theorem State.decOpen_of_other_tag (h : s.tlbLen.toNat ≤ s.params.tlbCap) (hcur : s.tlbCur.toNat < s.tlbLen.toNat)
    (htag : s.byteAt .tlb s.tlbCur.toNat ≠ tag) : s.decOpen tag = .error ⟨.tagMismatch, 0, s.tlbCur.toNat⟩ := by
  rw [State.decOpen_of_len_le_cap h, if_neg hcur.not_ge]
  exact if_pos htag

theorem State.decOpen_of_tagAtCursor {t : TlvType} (h : Claims.tagAtCursor t s) :
    s.decOpen t.tag = .ok s.tlbCur.toNat := by
  obtain ⟨hcap, hcur, htag⟩ := h
  exact State.decOpen_eq_ok.mpr ⟨hcap, rfl, hcur, htag.trans (tag_eq_tagNumber t).symm⟩

end

/-! ## The string form past its length field -/

/-- The writes of the string form but VAL: `n` bytes of TLB from `i` go to STR and the cursor passes them
(47_tlv_decode.md R244, R247). -/
def State.storeString (s : State) (i n : Nat) : State :=
  { (s.writeBytes .str 0 (s.readBytes .tlb i n)).setLen .str (BitVec.ofNat 16 n) with
    tlbCur := BitVec.ofNat 16 (i + n) }

theorem State.decString_of_rsizeAt_ok {s : State} {t : TlvType} {m k : Nat} {nbytes : Nat → Nat}
    (htag : Claims.tagAtCursor t s) (hr : s.rsizeAt (s.tlbCur.toNat + 1) = .ok (m, k)) :
    s.decString t nbytes =
      if s.tlbLen.toNat < s.tlbCur.toNat + 1 + k + nbytes m then
        .error ⟨.unexpectedEndOfData, 3, s.tlbCur.toNat⟩
      else if s.params.strCap < nbytes m then .error ⟨.capacityExceeded, 5, s.tlbCur.toNat⟩
      else .ok (m, s.storeString (s.tlbCur.toNat + 1 + k) (nbytes m)) := by
  rw [State.decString, State.decOpen_of_tagAtCursor htag, ok_bind, hr, ok_bind]
  exact (raiseIf_bind _ _ _).trans (if_congr Iff.rfl rfl (raiseIf_bind _ _ _))

/-! ## The three forms of a decode command -/

section
variable {t : TlvType}

/-- The types whose value is the number of a count header (47_tlv_decode.md R241, R242). -/
def isCountType (t : TlvType) : Prop := t = .arr ∨ t = .struct

/-- The types with `w` content bytes and no length field (47_tlv_decode.md section 3, R243). -/
def hasFixedWidth (t : TlvType) (w : Nat) : Prop := Claims.fixedWidth t = some w ∨ t = .bool ∧ w = 1

/-- The types whose content goes to STR (47_tlv_decode.md R244, R247, R248). -/
def isStringType (t : TlvType) : Prop := t = .ostr ∨ t = .vstr ∨ t = .bstr

theorem tlvForm_cases (t : TlvType) : isCountType t ∨ (∃ w, hasFixedWidth t w) ∨ isStringType t := by
  cases t with
  | arr => exact .inl (.inl rfl)
  | struct => exact .inl (.inr rfl)
  | bool => exact .inr (.inl ⟨1, .inr ⟨rfl, rfl⟩⟩)
  | ostr => exact .inr (.inr (.inl rfl))
  | vstr => exact .inr (.inr (.inr (.inl rfl)))
  | bstr => exact .inr (.inr (.inr (.inr rfl)))
  | i8 | u8 | enum | i16 | u16 | i32 | u32 | f32 | i64 | u64 | f64 => exact .inr (.inl ⟨_, .inl rfl⟩)

/-- A type without a fixed width has a length field. -/
theorem isCountType_or_isStringType (h : Claims.fixedWidth t = none) (hb : t ≠ .bool) :
    isCountType t ∨ isStringType t := by
  obtain hc | ⟨w, hw | ⟨rfl, -⟩⟩ | hs := tlvForm_cases t
  · exact .inl hc
  · cases h.symm.trans hw
  · contradiction
  · exact .inr hs

theorem exec_dec_of_isCountType (h : isCountType t) (s : State) : exec t.dec s = s.finish (s.decCount t) := by
  obtain rfl | rfl := h <;> rfl

theorem exec_dec_of_hasFixedWidth {w : Nat} (h : hasFixedWidth t w) (s : State) :
    ∃ conv, exec t.dec s = s.finish (s.decFixed t w conv) := by
  obtain h | ⟨rfl, rfl⟩ := h
  · cases t with
    | arr | struct | bool | bstr | ostr | vstr => contradiction
    | i8 | u8 | enum | i16 | u16 | i32 | u32 | f32 | i64 | u64 | f64 => cases h; exact ⟨_, rfl⟩
  · exact ⟨_, rfl⟩

theorem exec_dec_of_isStringType (h : isStringType t) (s : State) :
    ∃ g, exec t.dec s = s.finish (s.decString t (Claims.contentBytes t) >>= g) := by
  obtain rfl | rfl | rfl := h <;> exact ⟨_, rfl⟩

/-! ## The check that fails -/

variable {s : State} {e : CmdError}

/-- An error of the string form is how the command ends. -/
theorem exec_dec_of_decString_error (ht : isStringType t) (h : s.decString t (Claims.contentBytes t) = .error e) :
    exec t.dec s = s.finish (.error e) := by
  obtain ⟨g, hx⟩ := exec_dec_of_isStringType ht s
  rw [hx, h]
  rfl

/-- Every decode command opens with `dec_open` (47_tlv_decode.md R240). -/
theorem exec_dec_of_decOpen_error (h : s.decOpen (Claims.tagNumber t) = .error e) :
    exec t.dec s = s.finish (.error e) := by
  rw [← tag_eq_tagNumber] at h
  obtain ht | ⟨w, ht⟩ | ht := tlvForm_cases t
  · rw [exec_dec_of_isCountType ht, State.decCount, h]
    rfl
  · obtain ⟨conv, hx⟩ := exec_dec_of_hasFixedWidth ht s
    rw [hx, State.decFixed, h]
    rfl
  · refine exec_dec_of_decString_error ht ?_
    rw [State.decString, h]
    rfl

/-- Past its tag, a type with a length field goes on with `rsize_at` of the next byte. -/
theorem exec_dec_of_rsizeAt_error (ht : isCountType t ∨ isStringType t) (htag : Claims.tagAtCursor t s)
    (h : s.rsizeAt (s.tlbCur.toNat + 1) = .error e) : exec t.dec s = s.finish (.error e) := by
  have hopen := State.decOpen_of_tagAtCursor htag
  obtain ht | ht := ht
  · rw [exec_dec_of_isCountType ht, State.decCount, hopen, ok_bind, h]
    rfl
  · refine exec_dec_of_decString_error ht ?_
    rw [State.decString, hopen, ok_bind, h]
    rfl

theorem exec_dec_of_fixed_content_missing {w : Nat} (ht : hasFixedWidth t w) (htag : Claims.tagAtCursor t s)
    (h : s.tlbLen.toNat < s.tlbCur.toNat + 1 + w) :
    exec t.dec s = s.finish (.error ⟨.unexpectedEndOfData, 3, s.tlbCur.toNat⟩) := by
  obtain ⟨conv, hx⟩ := exec_dec_of_hasFixedWidth ht s
  rw [hx, State.decFixed, State.decOpen_of_tagAtCursor htag, ok_bind, State.need_of_missing h]
  rfl

theorem exec_dec_of_string_content_missing {m k : Nat} (ht : isStringType t) (htag : Claims.tagAtCursor t s)
    (hr : s.rsizeAt (s.tlbCur.toNat + 1) = .ok (m, k))
    (h : s.tlbLen.toNat < s.tlbCur.toNat + 1 + k + Claims.contentBytes t m) :
    exec t.dec s = s.finish (.error ⟨.unexpectedEndOfData, 3, s.tlbCur.toNat⟩) := by
  refine exec_dec_of_decString_error ht ?_
  rw [State.decString_of_rsizeAt_ok htag hr, if_pos h]

theorem exec_dec_of_string_too_long {m k : Nat} (ht : isStringType t) (htag : Claims.tagAtCursor t s)
    (hr : s.rsizeAt (s.tlbCur.toNat + 1) = .ok (m, k))
    (hneed : s.tlbCur.toNat + 1 + k + Claims.contentBytes t m ≤ s.tlbLen.toNat)
    (h : s.params.strCap < Claims.contentBytes t m) :
    exec t.dec s = s.finish (.error ⟨.capacityExceeded, 5, s.tlbCur.toNat⟩) := by
  refine exec_dec_of_decString_error ht ?_
  rw [State.decString_of_rsizeAt_ok htag hr, if_neg hneed.not_gt, if_pos h]

end

/-- An error reported at the cursor: every register value of TLB_CUR is an offset. -/
theorem raises_of_exec_eq_at_cursor {i : Instr} {s : State} {c : ErrCode} {sub : Nat} (hsub : sub < 256)
    (h : exec i s = s.finish (.error ⟨c, sub, s.tlbCur.toNat⟩)) : Claims.raises i s c.num sub s.tlbCur.toNat :=
  raises_of_exec_eq hsub s.tlbCur.isLt h

/-- Settles O48: rows 1 to 3 of 47_tlv_decode.md R258 are the errors of `dec_open`, rows 4 to 6 those of `rsize_at`
after the tag, and rows 7 and 8 those of the content. -/
theorem decErrorsInOrder : Obligations.DecErrorsInOrder := by
  intro s t
  refine ⟨fun h => ?aboveCap, fun hcap hend => ?noByte, fun hcap hcur htag => ?otherTag, fun htag =>
    ⟨fun hw hb => ?withLength, fun w ht h => ?fixedMissing,
      fun m k ht hr => ⟨fun h => ?stringMissing, fun hneed h => ?stringTooLong⟩⟩⟩
  case aboveCap =>
    exact raises_of_exec_eq (e := ⟨.invalidOperand, 1, 0⟩) (by decide) (by decide)
      (exec_dec_of_decOpen_error (State.decOpen_of_len_above_cap h))
  case noByte =>
    exact raises_of_exec_eq_at_cursor (c := .unexpectedEndOfData) (by decide)
      (exec_dec_of_decOpen_error (State.decOpen_of_no_byte hcap hend))
  case otherTag =>
    exact raises_of_exec_eq_at_cursor (c := .tagMismatch) (by decide)
      (exec_dec_of_decOpen_error (State.decOpen_of_other_tag hcap hcur htag))
  case withLength =>
    have ht := isCountType_or_isStringType hw hb
    refine ⟨fun hend => ?_, fun hnext hbad => ?_, fun hnext hlo hhi hend => ?_⟩
    · exact raises_of_exec_eq_at_cursor (c := .unexpectedEndOfData) (by decide)
        (exec_dec_of_rsizeAt_error ht htag (State.rsizeAt_of_no_byte hend))
    · exact raises_of_exec_eq (e := ⟨.malformedLength, 0, s.tlbCur.toNat + 1⟩) (by decide : 0 < 256)
        (hnext.trans s.tlbLen.isLt) (exec_dec_of_rsizeAt_error ht htag (State.rsizeAt_of_malformed hnext hbad))
    · have hk : (s.byteAt .tlb (s.tlbCur.toNat + 1)).toNat
          = 0x80 + ((s.byteAt .tlb (s.tlbCur.toNat + 1)).toNat - 0x80) := by omega
      exact raises_of_exec_eq_at_cursor (c := .unexpectedEndOfData) (by decide)
        (exec_dec_of_rsizeAt_error ht htag (State.rsizeAt_of_long_missing hnext (by omega) (by omega) hk hend))
  case fixedMissing =>
    exact raises_of_exec_eq_at_cursor (c := .unexpectedEndOfData) (by decide)
      (exec_dec_of_fixed_content_missing ht htag h)
  case stringMissing =>
    exact raises_of_exec_eq_at_cursor (c := .unexpectedEndOfData) (by decide)
      (exec_dec_of_string_content_missing ht htag hr h)
  case stringTooLong =>
    exact raises_of_exec_eq_at_cursor (c := .capacityExceeded) (by decide)
      (exec_dec_of_string_too_long ht htag hr hneed h)

end Sys2Proof.Machine
end

section
/-!
Precise errors (60_exceptions.md R276): the state that a failing command's report is added to, what the report holds,
that every command leaves CMD as the prologue wrote it, and the statement about them.
-/

namespace Sys2Proof.Machine

/-! ## The operations of the commands leave CMD -/

/-- The writes of a command whose checks pass leave CMD as it is in `s`. -/
def leavesCmd (s : State) (r : Except CmdError State) : Prop := ∀ u, r = .ok u → u.cmd = s.cmd

theorem leavesCmd_ok {s u : State} (h : u.cmd = s.cmd) : leavesCmd s (.ok u) := by
  rintro _ ⟨⟩; exact h

/-- A part of a command that gives no state may come before. -/
theorem leavesCmd_bind {α : Type} {s : State} {x : Except CmdError α} {f : α → Except CmdError State}
    (h : ∀ a, x = .ok a → leavesCmd s (f a)) : leavesCmd s (x >>= f) := by
  intro u hu
  obtain ⟨a, ha, hf⟩ := bind_eq_ok.mp hu
  exact h a ha u hf

theorem leavesCmd_append (s : State) (bs : List Byte) : leavesCmd s (s.append bs) := by
  intro u hu
  obtain ⟨-, -, rfl⟩ := State.append_eq_ok.mp hu
  simp

theorem leavesCmd_henc (s : State) (c : FrameCmd) : leavesCmd s (s.henc c) := by
  intro u hu
  obtain ⟨na, -, -, rfl⟩ := State.henc_eq_ok.mp hu
  simp

theorem State.decString_cmd {s u : State} {t : TlvType} {nbytes : Nat → Nat} {m : Nat}
    (h : s.decString t nbytes = .ok (m, u)) : u.cmd = s.cmd := by
  unfold State.decString at h
  simp only [bind_eq_ok, pure, Except.pure, Except.ok.injEq, Prod.mk.injEq] at h
  obtain ⟨p, -, ⟨m', k⟩, -, -, -, -, -, -, rfl⟩ := h
  simp

@[simp] theorem State.copyBuf_cmd (s : State) (src dst : BufName) (n : Word16) :
    (s.copyBuf src dst n).cmd = s.cmd := by
  simp [State.copyBuf]

@[simp] theorem State.clearRx_cmd (s : State) : s.clearRx.cmd = s.cmd := by
  simp [State.clearRx]

@[simp] theorem State.putRx_cmd (s : State) (r : ParsedFrame) : (s.putRx r).cmd = s.cmd := by
  simp [State.putRx]

/-! ## Every command but HDEC raises from where it started -/

/-- Every command but HDEC ends through `finish`, SRST and CLRERR included, and its own writes leave CMD. -/
theorem exec_eq_finish_leavesCmd {i : Instr} (hdec : i ≠ .hdec) (s : State) :
    ∃ r, exec i s = s.finish r ∧ leavesCmd s r := by
  cases i with
  | hdec => contradiction
  | nop | srst | clrerr | crcInit | crcUpd | seqReset | seqTxdone | seqRxdone | tlvRew =>
    refine ⟨.ok _, rfl, ?_⟩
    exact leavesCmd_ok rfl
  | tlvClr => exact ⟨.ok { s.setLen .tlb 0 with tlbCur := 0 }, rfl, leavesCmd_ok (s.setLen_cmd .tlb 0)⟩
  | xferF2r => exact ⟨_, rfl, leavesCmd_ok (s.copyBuf_cmd _ _ _)⟩
  | xferP2t => exact ⟨_, rfl, leavesCmd_bind fun _ _ => leavesCmd_ok (s.copyBuf_cmd _ _ _)⟩
  | xferT2p =>
    exact ⟨_, rfl, leavesCmd_bind fun _ _ => leavesCmd_bind fun _ _ => leavesCmd_ok (s.copyBuf_cmd _ _ _)⟩
  | crcUpds => exact ⟨_, rfl, leavesCmd_bind fun _ _ => leavesCmd_ok rfl⟩
  | hencI | hencRr | hencRnr | hencSnrm | hencDisc | hencUi | hencUa | hencDm | hencFrmr =>
    exact ⟨_, rfl, leavesCmd_henc s _⟩
  | tlvEncArr | tlvEncStruct | tlvEncBool | tlvEncI32 | tlvEncU32 | tlvEncI8 | tlvEncI16 | tlvEncU8 | tlvEncU16
  | tlvEncI64 | tlvEncU64 | tlvEncEnum | tlvEncF32 | tlvEncF64 | tlvWsize | tlvPutb =>
    exact ⟨_, rfl, leavesCmd_append s _⟩
  | tlvEncOstr | tlvEncVstr => exact ⟨_, rfl, leavesCmd_bind fun _ _ => leavesCmd_append s _⟩
  | tlvEncBstr => exact ⟨_, rfl, leavesCmd_bind fun _ _ => leavesCmd_bind fun _ _ => leavesCmd_append s _⟩
  | tlvDecArr | tlvDecStruct | tlvDecBool | tlvDecI32 | tlvDecU32 | tlvDecI8 | tlvDecI16 | tlvDecU8 | tlvDecU16
  | tlvDecI64 | tlvDecU64 | tlvDecEnum | tlvDecF32 | tlvDecF64 | tlvRsize | tlvGetb =>
    exact ⟨_, rfl, leavesCmd_bind fun _ _ => leavesCmd_bind fun _ _ => leavesCmd_ok rfl⟩
  | tlvDecOstr | tlvDecVstr | tlvDecBstr =>
    exact ⟨_, rfl, leavesCmd_bind fun a ha => leavesCmd_ok (State.decString_cmd (u := a.2) ha)⟩

/-! ## The state before the report -/

/-- The state that a failing command's report is added to: the one before the command, with the decoder's results
cleared when HDEC has examined a frame (60_exceptions.md R276). -/
def stateToReportOn (i : Instr) (s : State) : State :=
  if i = .hdec ∧ s.rxfLen.toNat ≤ 4097 then s.clearRx else s

theorem stateToReportOn_of_ne_hdec {i : Instr} (h : i ≠ .hdec) (s : State) : stateToReportOn i s = s :=
  if_neg fun hi => h hi.1

theorem stateToReportOn_hdec_of_len_le_cap {s : State} (h : s.rxfLen.toNat ≤ Config.frameCap) :
    stateToReportOn .hdec s = s.clearRx := if_pos ⟨rfl, h⟩

theorem stateToReportOn_hdec_of_len_above_cap {s : State} (h : Config.frameCap < s.rxfLen.toNat) :
    stateToReportOn .hdec s = s := if_neg fun hi => h.not_ge hi.2

/-- Clearing the decoder's results leaves ERRSTICKY. -/
theorem stateToReportOn_errsticky (i : Instr) (s : State) : (stateToReportOn i s).errsticky = s.errsticky := by
  unfold stateToReportOn
  split
  · exact s.clearRx_errsticky
  · rfl

section
variable {i : Instr} {s t : State}

/-- A command ends with `done`, or with `raise` from `stateToReportOn`, and CMD is kept in both. -/
theorem exec_ends (h : exec i s = .next t) :
    t.cmd = s.cmd ∧ (t.status = 0 ∨ ∃ e, t = (stateToReportOn i s).raise e) := by
  by_cases hdec : i = .hdec
  · subst hdec
    obtain ⟨hcap, hx⟩ | ⟨hcap, ⟨e, -, hx⟩ | ⟨r, -, hx⟩⟩ := execHdec_cases s <;> cases hx.symm.trans h
    · exact ⟨rfl, .inr ⟨_, by rw [stateToReportOn_hdec_of_len_above_cap hcap]⟩⟩
    · exact ⟨s.clearRx_cmd, .inr ⟨e, by rw [stateToReportOn_hdec_of_len_le_cap hcap]⟩⟩
    · exact ⟨s.putRx_cmd r, .inl rfl⟩
  · obtain ⟨r, hx, hr⟩ := exec_eq_finish_leavesCmd hdec s
    obtain ⟨u, hu, rfl⟩ | ⟨e, -, rfl⟩ := State.finish_cases (hx.symm.trans h)
    · exact ⟨hr u hu, .inl rfl⟩
    · exact ⟨rfl, .inr ⟨e, by rw [stateToReportOn_of_ne_hdec hdec]⟩⟩

/-- The prologue stores the command word, legal or not, and no command changes it (40_system.md R120). -/
theorem runCommand_cmd {w : Word16} (h : runCommand w s = .next t) : t.cmd = w := by
  unfold runCommand at h
  split at h
  next =>
    obtain ⟨hcmd, -⟩ := exec_ends h
    exact hcmd
  next => cases h; rfl

end

/-! ## The report -/

/-- The ten codes are numbered 1 to 10 (60_exceptions.md R270). -/
theorem ErrCode.num_mem_Icc (c : ErrCode) : 1 ≤ c.num ∧ c.num ≤ 10 := by
  cases c <;> decide

/-- A word of `w` bits is stored modulo `2 ^ w`. -/
theorem ofNat_mod_two_pow (w n : Nat) : BitVec.ofNat w (n % 2 ^ w) = BitVec.ofNat w n :=
  BitVec.eq_of_toNat_eq (by simp)

/-- ERRINFO holds SUB in eight bits and OFF modulo 65536 (10_state.md R24). -/
theorem CmdError.infoWord_eq_mod (e : CmdError) :
    e.infoWord = BitVec.ofNat 32 (e.sub % 256 * 65536 + e.off % 65536) := by
  have hsub : BitVec.ofNat 8 (e.sub % 256) = BitVec.ofNat 8 e.sub := ofNat_mod_two_pow 8 e.sub
  have hoff : BitVec.ofNat 16 (e.off % 65536) = BitVec.ofNat 16 e.off := ofNat_mod_two_pow 16 e.off
  calc e.infoWord = CmdError.infoWord ⟨e.code, e.sub % 256, e.off % 65536⟩ := by
        simp only [CmdError.infoWord, hsub, hoff]
    _ = _ := CmdError.infoWord_eq (Nat.mod_lt _ (by decide)) (Nat.mod_lt _ (by decide))

/-- `raise` writes a code from 1 to 10, its sub-cause and offset, and the code's bit of ERRSTICKY. -/
theorem State.raise_eq_report (s : State) (e : CmdError) :
    ∃ code sub off : Nat, 1 ≤ code ∧ code ≤ 10 ∧ sub < 256
      ∧ { s with
          status := BitVec.ofNat 8 code
          errinfo := BitVec.ofNat 32 (sub * 65536 + off % 65536)
          errsticky := s.errsticky ||| 1#16 <<< code } = s.raise e := by
  obtain ⟨hlo, hhi⟩ := e.code.num_mem_Icc
  refine ⟨e.code.num, e.sub % 256, e.off, hlo, hhi, Nat.mod_lt _ (by decide), ?_⟩
  rw [← e.infoWord_eq_mod]
  rfl

/-! ## The results that a failed HDEC clears -/

/-- Clearing the decoder's results sets ten fields; what RXP holds then is not specified (70_reset_and_hazards.md
R308). -/
theorem State.clearRx_eq_with (s : State) :
    s.clearRx = { s with
      rxp := s.clearRx.rxp, rxpLen := 0, rxCmd := 15, rxCtrl := 0, rxClient := 0, rxLog := 0, rxPhy := 0,
      rxAlen := 0, rxSss := 0, rxRrr := 0 } := by
  rw [State.clearRx, State.setLen]
  split <;> rfl

/-- Settles O55: a command that does not end with `done` raises from the state before its report, HDEC's clearing
reaches ten fields, and the word stays in CMD. -/
theorem failingCommandsArePrecise : Obligations.FailingCommandsArePrecise := by
  refine ⟨fun i s t h hne => ?_, fun s => ⟨_, s.clearRx_eq_with⟩, fun s t v rest hq h => ?_⟩
  · obtain ⟨-, hzero | ⟨e, rfl⟩⟩ := exec_ends h
    · contradiction
    · have hreport := (stateToReportOn i s).raise_eq_report e
      rw [stateToReportOn_errsticky] at hreport
      exact hreport
  · rw [step_cons hq, perform_wr_cmd] at h
    exact runCommand_cmd h

end Sys2Proof.Machine
end

section
/-!
Decoding and encoding agree (30_encoding.md R80, R81): `encode_of_decode` is one direction, and the other is decoding
the word of each command.
-/

namespace Sys2Proof

-- One declaration after another: elaborated in parallel they take more memory than a check has.
set_option Elab.async false

theorem decode_encode (i : Instr) : decode (encode i) = .ok i := by
  cases i with
  | crcUpd b => exact Machine.decode_crcUpd b
  | tlvPutb b => exact Machine.decode_tlvPutb b
  | _ => rfl

/-- Settles O1: a word that decodes is the encoding of its command, and the encoding of a command decodes to it. -/
theorem commandWordsDecodeAndEncodeAgree : Obligations.CommandWordsDecodeAndEncodeAgree := fun i _ =>
  ⟨encode_of_decode, fun h => h ▸ decode_encode i⟩

/-- Settles O3: each of the eight words is the encoding of its command. -/
theorem sampleCommandWordsDecode : Obligations.SampleCommandWordsDecode :=
  ⟨decode_encode .hencSnrm, decode_encode .tlvEncU16, decode_encode (.crcUpd 0x31), decode_encode (.tlvPutb 0xC0),
    decode_encode .hdec, decode_encode .tlvDecVstr, decode_encode .seqRxdone, decode_encode .xferP2t⟩

end Sys2Proof
end

section
/-!
The host's accesses as steps (10_state.md R42 to R45, 20_memory.md R72): what a write of bytes stores, that a read
changes nothing, that a write done twice is one write, which bytes a lowered length register forgets, and the
statements about them.
-/

namespace Sys2Proof.Machine

-- One declaration after another: elaborated in parallel they take more memory than a check has.
set_option Elab.async false

/-! ## A write of CMD and an idle step -/

theorem runCommand_of_decode {w : Word16} {i : Instr} (h : decode w = .ok i) (s : State) :
    runCommand w s = exec i { s with cmd := w } := by
  rw [runCommand, h]

/-- Settles O4: the step by the head of the queue. -/
theorem stepRunsTheDecodedCommand : Obligations.StepRunsTheDecodedCommand := by
  refine ⟨fun s v rest i hq hi => ?_, fun s => step_nil⟩
  rw [step_cons hq, perform_wr_cmd, runCommand_of_decode hi]

/-! ## Host writes of bytes -/

theorem State.setBuf_withBuffers (s : State) (b : BufName) (x : Buf) : (s.setBuf b x).withBuffers s = s := by
  cases b <;> rfl

theorem State.hostWriteBytes_withBuffers (s : State) (b : BufName) (i : Nat) (bs : List Byte) :
    (s.hostWriteBytes b i bs).withBuffers s = s := by
  unfold State.hostWriteBytes
  split
  · exact s.setBuf_withBuffers b _
  · rfl

theorem State.buf_hostWriteBytes_ne (s : State) {b b' : BufName} (h : b' ≠ b) (i : Nat) (bs : List Byte) :
    (s.hostWriteBytes b i bs).buf b' = s.buf b' := by
  unfold State.hostWriteBytes
  split
  · exact s.buf_writeBytes_ne h _ _
  · rfl

theorem hostWritable_eq_false {b : BufName} (h : b = .txf ∨ b = .rxp) : hostWritable b = false := by
  obtain rfl | rfl := h <;> rfl

theorem hostWritable_eq_true {b : BufName} (h : b ≠ .txf) (h' : b ≠ .rxp) : hostWritable b = true := by
  cases b with
  | txf | rxp => contradiction
  | _ => rfl

theorem State.hostWriteBytes_of_not_writable {b : BufName} (h : hostWritable b = false) (s : State) (i : Nat)
    (bs : List Byte) : s.hostWriteBytes b i bs = s := by
  simp [State.hostWriteBytes, h]

theorem State.hostWriteBytes_of_writable {b : BufName} (h : hostWritable b = true) (s : State) (i : Nat)
    (bs : List Byte) : s.hostWriteBytes b i bs = s.writeBytes b i (bs.take (s.cap b - i)) := by
  simp [State.hostWriteBytes, h]

/-- Settles O6: the step is `hostWriteBytes`, which stores the bytes that `take` leaves. -/
theorem hostWritesBufferBytes : Obligations.HostWritesBufferBytes := by
  intro s b i bs rest hq
  have hx : step s = .next ({ s with hostQueue := rest }.hostWriteBytes b i bs) := step_cons hq
  refine ⟨_, hx, State.hostWriteBytes_withBuffers _ b i bs, fun b' hne => State.buf_hostWriteBytes_ne _ hne i bs,
    fun h => ?_, fun htxf hrxp => ?_⟩
  · rw [State.hostWriteBytes_of_not_writable (hostWritable_eq_false h)]
    cases b <;> rfl
  · rw [State.hostWriteBytes_of_writable (hostWritable_eq_true htxf hrxp)]
    constructor
    · intro k v hv hk
      have hk' : k < State.cap { s with hostQueue := rest } b - i := by change k < s.cap b - i; omega
      have htake : (bs.take (State.cap { s with hostQueue := rest } b - i))[k]? = some v := by
        rw [List.getElem?_take_of_lt hk', hv]
      exact Buf.byteAt_of_get? (State.get?_writeBytes htake) b
    · intro j hj
      change j < i ∨ i + bs.length ≤ j ∨ State.cap { s with hostQueue := rest } b ≤ j at hj
      have hout : ¬ (i ≤ j ∧ j < i + (bs.take (State.cap { s with hostQueue := rest } b - i)).length) := by
        rw [List.length_take]; omega
      rw [State.byteAt_writeBytes, dif_neg hout]
      cases b <;> rfl

/-! ## Writes done twice -/

theorem Memory.filter_listing_eq_nil {p : Nat → Bool} {i : Nat} {bs : List Byte}
    (h : ∀ j, i ≤ j → j < i + bs.length → p j = false) :
    (Memory.listing i bs).filter (fun c => p c.1) = [] := by
  refine List.filter_eq_nil_iff.mpr fun c hc => ?_
  obtain ⟨hlo, hhi⟩ := Memory.mem_listing hc
  simp [h c.1 hlo hhi]

/-- Storing the same bytes at the same index again changes nothing. -/
theorem Memory.write_write_same (m : Memory) (i : Nat) (bs : List Byte) : (m.write i bs).write i bs = m.write i bs := by
  have hlo : (Memory.listing i bs).filter (fun c => decide (c.1 < i)) = [] :=
    Memory.filter_listing_eq_nil (p := fun j => decide (j < i)) fun j hj _ => by simpa using hj
  have hhi : (Memory.listing i bs).filter (fun c => decide (i + bs.length ≤ c.1)) = [] :=
    Memory.filter_listing_eq_nil (p := fun j => decide (i + bs.length ≤ j)) fun j _ hj => by simpa using hj
  have hcut : ∀ c : Host.Cell, ¬ (c.1 < i ∧ i + bs.length ≤ c.1) := fun c => by omega
  simp only [Memory.write, List.filter_append, List.filter_filter, hlo, hhi, ← Bool.decide_and, and_self,
    and_comm (a := i + bs.length ≤ _), hcut, decide_false, List.filter_false, List.nil_append, List.append_nil]

theorem State.writeBytes_writeBytes_same (s : State) (b : BufName) (i : Nat) (bs : List Byte) :
    (s.writeBytes b i bs).writeBytes b i bs = s.writeBytes b i bs := by
  rw [State.writeBytes, State.buf_writeBytes, Buf.write, Buf.write, Memory.write_write_same, State.writeBytes,
    State.setBuf_setBuf, Buf.write]

theorem State.hostWriteBytes_hostWriteBytes_same (s : State) (b : BufName) (i : Nat) (bs : List Byte) :
    (s.hostWriteBytes b i bs).hostWriteBytes b i bs = s.hostWriteBytes b i bs := by
  cases hb : hostWritable b with
  | false => simp only [State.hostWriteBytes_of_not_writable hb]
  | true =>
    simp only [State.hostWriteBytes_of_writable hb, State.cap_writeBytes, State.writeBytes_writeBytes_same]

theorem State.putLen_len (s : State) (b : BufName) : s.putLen b (s.len b) = s := by
  cases b <;> rfl

/-- A length register written with the value it has lowers nothing. -/
theorem State.setLen_len (s : State) (b : BufName) : s.setLen b (s.len b) = s := by
  rw [State.setLen_of_not_lowered (by simp), State.putLen_len]

theorem State.setLen_setLen_same (s : State) (b : BufName) (v : Word16) :
    (s.setLen b v).setLen b v = s.setLen b v := by
  have h := (s.setLen b v).setLen_len b
  rwa [State.len_setLen] at h

theorem State.writeReg_writeReg_same (s : State) (r : Reg) (v : Word64) :
    (s.writeReg r v).writeReg r v = s.writeReg r v := by
  cases r with
  | strLen | txpLen | rxfLen | tlbLen => exact s.setLen_setLen_same _ _
  | _ => rfl

theorem perform_wr {r : Reg} (hr : r ≠ .cmd) (v : Word64) (s : State) :
    perform (.wr r v) s = .next (s.writeReg r v) := by
  rw [perform_eq_hostAccess (by rintro w ⟨⟩; exact hr rfl)]
  rfl

theorem perform_wrb (b : BufName) (i : Nat) (bs : List Byte) (s : State) :
    perform (.wrb b i bs) s = .next (s.hostWriteBytes b i bs) := rfl

/-! ## Host reads -/

section
variable {s : State} {b : BufName} {i n : Nat} {rest : List HostAction}

theorem step_rd {r : Reg} (hq : s.hostQueue = .rd r :: rest) :
    step s = .next { s with hostQueue := rest, busRead := .reg (s.readReg r) } := step_cons hq

theorem hostByteAt_with_hostQueue (q : List HostAction) (j : Nat) :
    State.hostByteAt { s with hostQueue := q } b j = s.hostByteAt b j := by
  cases b <;> rfl

/-- A host read within the capacity answers with `hostByteAt` of each index. -/
theorem step_rdb (hq : s.hostQueue = .rdb b i n :: rest) (hcap : i + n ≤ s.cap b) :
    step s = .next { s with
      hostQueue := rest, busRead := .bytes ((List.range n).map fun k => s.hostByteAt b (i + k)),
      hostReads := s.hostReads + 1 } := by
  have hcap' : ¬ State.cap { s with hostQueue := rest } b < i + n := Nat.not_lt.mpr hcap
  rw [step_cons hq, perform_eq_hostAccess (by rintro w ⟨⟩)]
  simp only [State.hostAccess, if_neg hcap', hostByteAt_with_hostQueue]

theorem step_rdb_of_above_cap (hq : s.hostQueue = .rdb b i n :: rest) (hcap : s.cap b < i + n) :
    step s = .fault (.hostReadBeyondCapacity b) :=
  (step_cons hq).trans (if_pos hcap)

theorem State.hostByteAt_of_lt (h : i < (s.len b).toNat) : s.hostByteAt b i = s.byteAt b i := if_pos h

theorem State.hostByteAt_of_le (h : (s.len b).toNat ≤ i) :
    s.hostByteAt b i = Config.unspecifiedRead b s.hostReads i := if_neg (by omega)

end

/-- Settles O7: a read by the three ends of the host's read actions, a write by the idempotence of its two forms. -/
theorem hostReadsHaveNoSideEffect : Obligations.HostReadsHaveNoSideEffect := by
  refine ⟨fun s r rest => step_rd, fun s b i n rest hq hcap => ?_, fun s b i n rest => step_rdb_of_above_cap,
    fun s t r v hr h => ?_, fun s t b i bs h => ?_⟩
  · refine ⟨_, step_rdb hq hcap, by simp, fun k hk hlen => ?_⟩
    simp [hk, State.hostByteAt_of_lt hlen]
  · rw [perform_wr hr] at h ⊢
    cases h
    rw [State.writeReg_writeReg_same]
  · rw [perform_wrb] at h ⊢
    cases h
    rw [State.hostWriteBytes_hostWriteBytes_same]

/-! ## Bytes above a lowered length register -/

/-- The four length registers that the host may write (10_state.md section 2). -/
theorem writeReg_of_length_register {b : BufName} {r : Reg}
    (h : (b, r) ∈ [(BufName.rxf, Reg.rxfLen), (.txp, .txpLen), (.tlb, .tlbLen), (.str, .strLen)]) :
    r ≠ .cmd ∧ ∀ (s : State) (v : Word64), s.writeReg r v = s.setLen b (v.setWidth 16) := by
  simp only [List.mem_cons, Prod.mk.injEq, List.not_mem_nil, or_false] at h
  obtain ⟨rfl, rfl⟩ | ⟨rfl, rfl⟩ | ⟨rfl, rfl⟩ | ⟨rfl, rfl⟩ := h <;> exact ⟨by decide, fun _ _ => rfl⟩

theorem State.buf_with_hostQueue (s : State) (q : List HostAction) (b : BufName) :
    State.buf { s with hostQueue := q } b = s.buf b := by
  cases b <;> rfl

theorem State.len_with_hostQueue (s : State) (q : List HostAction) (b : BufName) :
    State.len { s with hostQueue := q } b = s.len b := by
  cases b <;> rfl

/-- Settles O8: the write of a length register is `setLen`, and the read of one byte is `hostByteAt`. -/
theorem bytesAboveALoweredLengthLoseTheirValue : Obligations.BytesAboveALoweredLengthLoseTheirValue := by
  refine ⟨fun s b r v rest hr hq => ?_, fun s b i rest hq hcap hlen => ?_⟩
  · obtain ⟨hcmd, hset⟩ := writeReg_of_length_register hr
    refine ⟨_, (step_wr hq hcmd).trans (congrArg _ (hset _ v)), State.len_setLen _ b _, fun hlow => ?_,
      fun hlow => ?_⟩ <;>
      rw [State.buf_setLen, State.len_with_hostQueue, State.buf_with_hostQueue]
    · rw [if_pos hlow]
      exact ⟨rfl, fun j => Memory.get?_below _ _ j⟩
    · rw [if_neg hlow]
  · rw [step_rdb hq hcap]
    simp [State.hostByteAt_of_le hlen]

end Sys2Proof.Machine
end

section
/-!
The commands that reset: SRST (40_system.md R122), TLV.CLR and TLV.REW (45_tlv_cursor.md R195, R196), that the state
after reset meets the invariant (10_state.md section 5), and the statements about them.
-/

namespace Sys2Proof.Machine

-- One declaration after another: elaborated in parallel they take more memory than a check has.
set_option Elab.async false

theorem Memory.below_zero (m : Memory) : m.below 0 = [] := by
  simp [Memory.below]

theorem Buf.truncate_zero (x : Buf) : x.truncate 0 = { cells := [], epoch := x.epoch + 1 } := by
  rw [Buf.truncate, Memory.below_zero]

theorem exec_srst (s : State) : exec .srst s = .next s.clearAll.done := rfl

theorem State.buf_clearAll (s : State) (b : BufName) : s.clearAll.buf b = (s.buf b).truncate 0 := by
  cases b <;> rfl

theorem State.buf_done (s : State) (b : BufName) : s.done.buf b = s.buf b := by
  cases b <;> rfl

/-- Settles O10: SRST is `clearAll`, which truncates every buffer at 0. -/
theorem srstCompletes : Obligations.SrstCompletes :=
  ⟨rfl, fun s => ⟨_, exec_srst s, ⟨rfl, rfl⟩, rfl, fun b => by
    rw [State.buf_done, State.buf_clearAll, Buf.truncate_zero]⟩⟩

theorem exec_tlvRew (s : State) : exec .tlvRew s = .next ({ s with tlbCur := 0 } : State).done := rfl

theorem exec_tlvClr (s : State) : exec .tlvClr s = .next ({ s.setLen .tlb 0 with tlbCur := 0 } : State).done := rfl

/-- A length register set to 0 forgets every byte, unless it is 0 already. -/
theorem State.setLen_tlb_zero (s : State) :
    s.setLen .tlb 0 = { s with
      tlb := if s.tlbLen = 0 then s.tlb else { cells := [], epoch := s.tlb.epoch + 1 }, tlbLen := 0 } := by
  have hlow : 0 < s.len .tlb ↔ ¬ s.tlbLen = 0 := BitVec.pos_iff_ne_zero _
  rw [State.setLen, ite_cond_congr (propext hlow), ite_not]
  split
  · rfl
  · exact congrArg (fun x => { s with tlb := x, tlbLen := 0 }) s.tlb.truncate_zero

/-- Settles O36: TLV.REW writes the cursor only, TLV.CLR is `setLen` to 0 and the cursor. -/
theorem tlvClrAndRewComplete : Obligations.TlvClrAndRewComplete := by
  refine ⟨rfl, rfl, fun s => ⟨exec_tlvRew s, _, ?_, rfl⟩⟩
  rw [exec_tlvClr, State.setLen_tlb_zero]
  rfl

theorem defaultParams_wf : Config.default.wf = true := by decide +kernel

/-- Settles O52: the reset values one by one, and no buffer lists a byte. -/
theorem resetMeetsTheInvariant : Obligations.ResetMeetsTheInvariant where
  params := defaultParams_wf
  status := by decide
  errinfo := rfl
  errsticky := rfl
  cfg := rfl
  txfLen := by decide
  rxpLen := by decide
  results := .inl ⟨rfl, rfl, rfl, rfl, rfl, rfl, rfl, rfl, rfl⟩
  buffers := fun b => ⟨reset_buffers_wf b, by cases b <;> exact List.forall_mem_nil _⟩

end Sys2Proof.Machine
end

section
/-!
What a command can do, said once: `Effect` lists the writes of a command that ends with `done`, `raisesIn` the codes
of the errors of a part of a command, and `exec_cases` says that a command ends with one of its effects or with one of
its errors. The statement about the codes (60_exceptions.md R272) follows.
-/

namespace Sys2Proof.Machine

-- One declaration after another: elaborated in parallel they take more memory than a check has.
set_option Elab.async false

/-! ## The codes that a part of a command can raise -/

/-- Every error of `x` has its code in `L`. -/
def raisesIn {α : Type} (L : List Nat) (x : Except CmdError α) : Prop := ∀ e, x = .error e → e.code.num ∈ L

section
variable {α β : Type} {L : List Nat}

theorem raisesIn_ok (a : α) : raisesIn L (.ok a : Except CmdError α) := by
  rintro _ ⟨⟩

theorem raisesIn_error {e : CmdError} (h : e.code.num ∈ L) : raisesIn L (.error e : Except CmdError α) := by
  rintro _ ⟨⟩
  exact h

theorem raisesIn_bind {x : Except CmdError α} {f : α → Except CmdError β} (hx : raisesIn L x)
    (hf : ∀ a, raisesIn L (f a)) : raisesIn L (x >>= f) := by
  intro e he
  cases x with
  | error e' =>
    obtain rfl : e' = e := Except.error.inj he
    exact hx e' rfl
  | ok a => exact hf a e he

theorem raisesIn_raiseIf {c : Prop} [Decidable c] {e : CmdError} (h : e.code.num ∈ L) : raisesIn L (raiseIf c e) := by
  unfold raiseIf
  split
  · exact raisesIn_error h
  · exact raisesIn_ok ()

/-- A check and what comes after it. -/
theorem raisesIn_check {c : Prop} [Decidable c] {e : CmdError} {f : Unit → Except CmdError α}
    (h : e.code.num ∈ L) (hf : raisesIn L (f ())) : raisesIn L (raiseIf c e >>= f) :=
  raisesIn_bind (raisesIn_raiseIf h) fun _ => hf

theorem raisesIn_mono {L' : List Nat} {x : Except CmdError α} (hx : raisesIn L x) (h : L ⊆ L') : raisesIn L' x :=
  fun e he => h (hx e he)

end

/-! ### The shared operations -/

section
variable (s : State)

theorem raisesIn_append (bs : List Byte) : raisesIn [9, 10] (s.append bs) :=
  raisesIn_check (by decide) (raisesIn_check (by decide) (raisesIn_ok _))

theorem raisesIn_tlbCheck : raisesIn [9] s.tlbCheck := raisesIn_raiseIf (by decide)

theorem raisesIn_need (q sub : Nat) : raisesIn [6] (s.need q sub) := raisesIn_raiseIf (List.mem_singleton_self 6)

theorem raisesIn_decOpen (tag : Byte) : raisesIn [5, 6, 9] (s.decOpen tag) :=
  raisesIn_bind (raisesIn_mono (raisesIn_tlbCheck s) (by decide)) fun _ =>
    raisesIn_check (by simp [ErrCode.num]) (raisesIn_check (by simp [ErrCode.num]) (raisesIn_ok _))

theorem raisesIn_rsizeAt (q : Nat) : raisesIn [6, 7] (s.rsizeAt q) := by
  refine raisesIn_bind (raisesIn_mono (raisesIn_need s _ _) (by decide)) fun _ => ?_
  dsimp only
  split
  · exact raisesIn_ok _
  · exact raisesIn_check (by simp [ErrCode.num])
      (raisesIn_bind (raisesIn_mono (raisesIn_need s _ _) (by decide)) fun _ => raisesIn_ok _)

theorem raisesIn_decCount (t : TlvType) : raisesIn [5, 6, 7, 9] (s.decCount t) :=
  raisesIn_bind (raisesIn_mono (raisesIn_decOpen s _) (by decide)) fun _ =>
    raisesIn_bind (raisesIn_mono (raisesIn_rsizeAt s _) (by decide)) fun _ => raisesIn_ok _

theorem raisesIn_decFixed (t : TlvType) (w : Nat) (conv : Nat → Word64) : raisesIn [5, 6, 9] (s.decFixed t w conv) :=
  raisesIn_bind (raisesIn_decOpen s _) fun _ =>
    raisesIn_bind (raisesIn_mono (raisesIn_need s _ _) (by decide)) fun _ => raisesIn_ok _

theorem raisesIn_decString (t : TlvType) (nbytes : Nat → Nat) : raisesIn [5, 6, 7, 9, 10] (s.decString t nbytes) :=
  raisesIn_bind (raisesIn_mono (raisesIn_decOpen s _) (by decide)) fun _ =>
    raisesIn_bind (raisesIn_mono (raisesIn_rsizeAt s _) (by decide)) fun _ =>
      raisesIn_bind (raisesIn_mono (raisesIn_need s _ _) (by decide)) fun _ =>
        raisesIn_check (by simp [ErrCode.num]) (raisesIn_ok _)

theorem raisesIn_hencChecks : raisesIn [9] s.hencChecks := by
  refine raisesIn_check (by decide) ?_
  cases alenBytes s.srvAlen with
  | none => exact raisesIn_error (by decide)
  | some na =>
    exact raisesIn_check (by decide) (raisesIn_check (by decide) (raisesIn_check (by decide) (raisesIn_ok na)))

theorem raisesIn_hencFrame (c : FrameCmd) : raisesIn [9, 10] (s.hencFrame c) :=
  raisesIn_bind (raisesIn_mono (raisesIn_hencChecks s) (by decide)) fun _ =>
    raisesIn_check (by decide) (raisesIn_ok _)

end

/-! ### The frame decoder -/

section
variable (F : List Byte)

theorem raisesIn_hdecEnvelope : raisesIn [1, 2, 3] (hdecEnvelope F) :=
  raisesIn_check (by decide) (raisesIn_check (by decide) (raisesIn_check (by simp [ErrCode.num])
    (raisesIn_check (by decide) (raisesIn_check (by decide) (raisesIn_raiseIf (by simp [ErrCode.num]))))))

theorem raisesIn_hdecWalk (limit room p : Nat) : raisesIn [1] (hdecWalk F limit room p) := by
  induction room generalizing p with
  | zero => exact raisesIn_error (List.mem_singleton_self 1)
  | succ room ih =>
    unfold hdecWalk
    split
    · exact raisesIn_error (List.mem_singleton_self 1)
    · split
      · exact raisesIn_ok _
      · split
        next e he => exact raisesIn_error (ih _ e he)
        next => exact raisesIn_ok _

theorem raisesIn_hdecAddresses : raisesIn [1] (hdecAddresses F) :=
  raisesIn_bind (raisesIn_hdecWalk F _ _ _) fun _ =>
    raisesIn_check (List.mem_singleton_self 1) (raisesIn_check (List.mem_singleton_self 1)
      (raisesIn_check (List.mem_singleton_self 1) (raisesIn_ok _)))

theorem raisesIn_hdecInfo (c : Nat) : raisesIn [1, 3] (hdecInfo F c) := by
  refine raisesIn_check (by simp [ErrCode.num]) ?_
  split
  · exact raisesIn_ok _
  · exact raisesIn_check (by simp [ErrCode.num]) (raisesIn_ok _)

theorem raisesIn_hdecPayload (p : Config.Params) (sel : Bool) (c : Nat) (ctrl : Byte) (info : List Byte) :
    raisesIn [1, 4, 10] (hdecPayload p sel c ctrl info) := by
  refine raisesIn_check (by simp [ErrCode.num]) ?_
  cases p.tags.classify ctrl with
  | none => exact raisesIn_error (by simp [ErrCode.num])
  | some cmd =>
    exact raisesIn_check (by simp [ErrCode.num]) (raisesIn_check (by simp [ErrCode.num]) (raisesIn_ok _))

theorem raisesIn_hdecParse (p : Config.Params) (sel : Bool) : raisesIn [1, 2, 3, 4, 10] (hdecParse p sel F) :=
  raisesIn_bind (raisesIn_mono (raisesIn_hdecEnvelope F) (by decide)) fun _ =>
    raisesIn_bind (raisesIn_mono (raisesIn_hdecAddresses F) (by decide)) fun _ =>
      raisesIn_bind (raisesIn_mono (raisesIn_hdecInfo F _) (by decide)) fun _ =>
        raisesIn_bind (raisesIn_mono (raisesIn_hdecPayload p sel _ _ _) (by decide)) fun _ => raisesIn_ok _

end

/-! ## The writes of a command that ends with `done` -/

/-- `Effect s i u`: the command `i` may make of `s` the state `u` before `done`. The registers a constructor leaves
open are those whose value no statement about all commands needs. -/
inductive Effect (s : State) : Instr → State → Prop
  | registers {i : Instr} (a : Word16) (x y : BitVec 3) (e : Word16) (he : e = s.errsticky ∨ e = 0) :
      Effect s i { s with crcAcc := a, sss := x, rrr := y, errsticky := e }
  | srst : Effect s .srst s.clearAll
  | tlvClr : Effect s .tlvClr { s.setLen .tlb 0 with tlbCur := 0 }
  | cursor {i : Instr} (v : Word64) {c : Nat} (hc : c ≤ s.tlbLen.toNat) : Effect s i (s.putVal v c)
  | append {i : Instr} {bs : List Byte} (hi : .tlb ∈ Claims.writesBuf i)
      (hfit : s.tlbLen.toNat + bs.length ≤ s.params.tlbCap) :
      Effect s i ((s.writeBytes .tlb s.tlbLen.toNat bs).setLen .tlb (BitVec.ofNat 16 (s.tlbLen.toNat + bs.length)))
  | xferT2p (hfit : s.tlbLen.toNat ≤ s.params.payCap) : Effect s .xferT2p (s.copyBuf .tlb .txp s.tlbLen)
  | xferP2t (hfit : s.rxpLen.toNat ≤ s.params.tlbCap) :
      Effect s .xferP2t { s.copyBuf .rxp .tlb s.rxpLen with tlbCur := 0 }
  | xferF2r : Effect s .xferF2r (s.copyBuf .txf .rxf s.txfLen)
  | henc {c : FrameCmd} {F : List Byte} (hF : s.hencFrame c = .ok F) : Effect s c.henc (s.storeFrame F)
  | string {i : Instr} (v : Word64) {k n : Nat} (hi : .str ∈ Claims.writesBuf i) (hend : k + n ≤ s.tlbLen.toNat)
      (hfit : n ≤ s.params.strCap) : Effect s i { s.storeString k n with val := v }
  | hdec {r : ParsedFrame} (hcap : s.rxfLen.toNat ≤ Config.frameCap)
      (hr : hdecParse s.params s.llcRxSel s.rxFrame = .ok r) : Effect s .hdec (s.putRx r)

/-- `r` is the checks and writes of the command `i` on `s`: an effect, or an error with a code of `i`. -/
structure Ends (i : Instr) (s : State) (r : Except CmdError State) : Prop where
  writes : ∀ u, r = .ok u → Effect s i u
  raises : raisesIn (Claims.codes i) r

section
variable {i : Instr} {s : State}

theorem ends_ok {u : State} (h : Effect s i u) : Ends i s (.ok u) :=
  ⟨by rintro _ ⟨⟩; exact h, raisesIn_ok u⟩

/-- A check of a command before what ends with an effect. -/
theorem ends_check {c : Prop} [Decidable c] {e : CmdError} {f : Unit → Except CmdError State}
    (he : e.code.num ∈ Claims.codes i) (hf : ¬ c → Ends i s (f ())) : Ends i s (raiseIf c e >>= f) := by
  rw [raiseIf_bind]
  split
  next => exact ⟨by rintro _ ⟨⟩, raisesIn_error he⟩
  next hc => exact hf hc

theorem ends_append (hi : .tlb ∈ Claims.writesBuf i) (hcodes : Claims.codes i = [9, 10]) (bs : List Byte) :
    Ends i s (s.append bs) := by
  refine ⟨fun u hu => ?_, hcodes ▸ raisesIn_append s bs⟩
  obtain ⟨-, hfit, rfl⟩ := State.append_eq_ok.mp hu
  exact .append hi hfit

theorem ends_henc (c : FrameCmd) : Ends c.henc s (s.henc c) := by
  have hcodes : Claims.codes c.henc = [9, 10] := by cases c <;> rfl
  rw [State.henc_eq_storeFrame]
  have hraises := raisesIn_hencFrame s c
  cases hF : s.hencFrame c with
  | error e => exact ⟨by rintro _ ⟨⟩, raisesIn_error (hcodes ▸ hraises e hF)⟩
  | ok F => exact ends_ok (.henc hF)

/-- The length field that `rsize_at` reads lies below TLB_LEN. -/
theorem State.rsizeAt_end_le {q n k : Nat} (h : s.rsizeAt q = .ok (n, k)) : q + k ≤ s.tlbLen.toNat := by
  obtain ⟨hq, ⟨-, -, hk⟩ | ⟨-, -, hend, -, hk⟩⟩ := State.rsizeAt_eq_ok.mp h
  · rwa [hk]
  · rwa [hk, ← Nat.add_assoc]

theorem ends_decCount {t : TlvType} (hcodes : Claims.codes i = [5, 6, 7, 9]) : Ends i s (s.decCount t) := by
  refine ⟨fun u hu => ?_, hcodes ▸ raisesIn_decCount s t⟩
  obtain ⟨p, -, hu⟩ := bind_eq_ok.mp hu
  obtain ⟨⟨n, k⟩, hr, hu⟩ := bind_eq_ok.mp hu
  cases hu
  exact .cursor _ (State.rsizeAt_end_le hr)

theorem ends_decFixed {t : TlvType} {w : Nat} {conv : Nat → Word64} (hcodes : Claims.codes i = [5, 6, 9]) :
    Ends i s (s.decFixed t w conv) := by
  refine ⟨fun u hu => ?_, hcodes ▸ raisesIn_decFixed s t w conv⟩
  obtain ⟨p, -, hu⟩ := bind_eq_ok.mp hu
  obtain ⟨_, hneed, hu⟩ := bind_eq_ok.mp hu
  cases hu
  exact .cursor _ (State.need_eq_ok.mp hneed)

/-- Everything the string form can do when it succeeds. -/
theorem State.decString_eq_ok {t : TlvType} {nbytes : Nat → Nat} {m : Nat} {u : State}
    (h : s.decString t nbytes = .ok (m, u)) :
    ∃ k, k + nbytes m ≤ s.tlbLen.toNat ∧ nbytes m ≤ s.params.strCap ∧ u = s.storeString k (nbytes m) := by
  obtain ⟨p, -, h⟩ := bind_eq_ok.mp h
  obtain ⟨⟨m', k⟩, -, h⟩ := bind_eq_ok.mp h
  obtain ⟨_, hneed, h⟩ := bind_eq_ok.mp h
  obtain ⟨_, hfit, h⟩ := bind_eq_ok.mp h
  cases h
  exact ⟨p + 1 + k, State.need_eq_ok.mp hneed, Nat.not_lt.mp (raiseIf_eq_ok.mp hfit), rfl⟩

@[simp] theorem State.storeString_val (k n : Nat) : (s.storeString k n).val = s.val := by
  simp [State.storeString]

/-- The string types: VAL is written or kept. -/
theorem ends_decString {t : TlvType} {nbytes : Nat → Nat} {g : Nat × State → State}
    (hcodes : Claims.codes i = [5, 6, 7, 9, 10]) (hi : .str ∈ Claims.writesBuf i)
    (hg : ∀ a : Nat × State, ∃ v, g a = { a.2 with val := v }) :
    Ends i s (s.decString t nbytes >>= fun a => .ok (g a)) := by
  constructor
  · intro u hu
    obtain ⟨⟨m, u'⟩, hd, hu⟩ := bind_eq_ok.mp hu
    obtain ⟨k, hend, hfit, rfl⟩ := State.decString_eq_ok hd
    obtain ⟨v, hv⟩ := hg (m, s.storeString k (nbytes m))
    cases hu
    rw [hv]
    exact .string v hi hend hfit
  · rw [hcodes]
    exact raisesIn_bind (raisesIn_decString s t nbytes) fun _ => raisesIn_ok _

theorem ends_tlvRsize : Ends .tlvRsize s (do
    s.tlbCheck
    let (n, k) ← s.rsizeAt s.tlbCur.toNat
    return s.putVal (zext64 n) (s.tlbCur.toNat + k)) := by
  constructor
  · intro u hu
    obtain ⟨_, -, hu⟩ := bind_eq_ok.mp hu
    obtain ⟨⟨n, k⟩, hr, hu⟩ := bind_eq_ok.mp hu
    cases hu
    exact .cursor _ (State.rsizeAt_end_le hr)
  · exact raisesIn_bind (raisesIn_mono (raisesIn_tlbCheck s) (by decide)) fun _ =>
      raisesIn_bind (raisesIn_mono (raisesIn_rsizeAt s _) (by decide)) fun _ => raisesIn_ok _

/-- Every command but HDEC ends through `finish`, with one of its effects or one of its errors. -/
theorem exec_eq_finish_ends (hdec : i ≠ .hdec) (s : State) : ∃ r, exec i s = s.finish r ∧ Ends i s r := by
  cases i with
  | hdec => contradiction
  | nop => exact ⟨.ok s, rfl, ends_ok (.registers s.crcAcc s.sss s.rrr s.errsticky (.inl rfl))⟩
  | clrerr => exact ⟨_, rfl, ends_ok (.registers s.crcAcc s.sss s.rrr 0 (.inr rfl))⟩
  | crcInit => exact ⟨_, rfl, ends_ok (.registers 0xFFFF s.sss s.rrr s.errsticky (.inl rfl))⟩
  | crcUpd b => exact ⟨_, rfl, ends_ok (.registers (crcStep s.crcAcc b) s.sss s.rrr s.errsticky (.inl rfl))⟩
  | crcUpds =>
    exact ⟨_, rfl, ends_check (by decide) fun _ => ends_ok (.registers _ s.sss s.rrr s.errsticky (.inl rfl))⟩
  | seqReset => exact ⟨_, rfl, ends_ok (.registers s.crcAcc 0 0 s.errsticky (.inl rfl))⟩
  | seqTxdone => exact ⟨_, rfl, ends_ok (.registers s.crcAcc (s.sss + 1) s.rrr s.errsticky (.inl rfl))⟩
  | seqRxdone => exact ⟨_, rfl, ends_ok (.registers s.crcAcc s.sss (s.rrr + 1) s.errsticky (.inl rfl))⟩
  | srst => exact ⟨_, rfl, ends_ok .srst⟩
  | tlvClr => exact ⟨_, rfl, ends_ok .tlvClr⟩
  | tlvRew => exact ⟨_, rfl, ends_ok (.cursor s.val (Nat.zero_le _))⟩
  | xferF2r => exact ⟨_, rfl, ends_ok .xferF2r⟩
  | xferT2p =>
    exact ⟨_, rfl, ends_check (by decide) fun _ => ends_check (by decide) fun h =>
      ends_ok (.xferT2p (Nat.not_lt.mp h))⟩
  | xferP2t => exact ⟨_, rfl, ends_check (by decide) fun h => ends_ok (.xferP2t (Nat.not_lt.mp h))⟩
  | hencI => exact ⟨_, rfl, ends_henc .I⟩
  | hencRr => exact ⟨_, rfl, ends_henc .RR⟩
  | hencRnr => exact ⟨_, rfl, ends_henc .RNR⟩
  | hencSnrm => exact ⟨_, rfl, ends_henc .SNRM⟩
  | hencDisc => exact ⟨_, rfl, ends_henc .DISC⟩
  | hencUi => exact ⟨_, rfl, ends_henc .UI⟩
  | hencUa => exact ⟨_, rfl, ends_henc .UA⟩
  | hencDm => exact ⟨_, rfl, ends_henc .DM⟩
  | hencFrmr => exact ⟨_, rfl, ends_henc .FRMR⟩
  | tlvEncArr | tlvEncStruct | tlvEncBool | tlvEncI32 | tlvEncU32 | tlvEncI8 | tlvEncI16 | tlvEncU8 | tlvEncU16
  | tlvEncI64 | tlvEncU64 | tlvEncEnum | tlvEncF32 | tlvEncF64 | tlvWsize | tlvPutb =>
    exact ⟨_, rfl, ends_append (List.mem_singleton_self _) rfl _⟩
  | tlvEncOstr | tlvEncVstr =>
    exact ⟨_, rfl, ends_check (by decide) fun _ => ends_append (List.mem_singleton_self _) rfl _⟩
  | tlvEncBstr =>
    exact ⟨_, rfl, ends_check (by decide) fun _ => ends_check (by decide) fun _ =>
      ends_append (List.mem_singleton_self _) rfl _⟩
  | tlvDecArr | tlvDecStruct => exact ⟨_, rfl, ends_decCount rfl⟩
  | tlvDecBool | tlvDecI32 | tlvDecU32 | tlvDecI8 | tlvDecI16 | tlvDecU8 | tlvDecU16 | tlvDecI64 | tlvDecU64
  | tlvDecEnum | tlvDecF32 | tlvDecF64 => exact ⟨_, rfl, ends_decFixed rfl⟩
  | tlvDecOstr | tlvDecVstr =>
    exact ⟨_, rfl, ends_decString (g := fun a => a.2) rfl (List.mem_singleton_self _) fun a => ⟨a.2.val, rfl⟩⟩
  | tlvDecBstr =>
    exact ⟨_, rfl, ends_decString (g := fun a => { a.2 with val := zext64 a.1 }) rfl (List.mem_singleton_self _)
      fun a => ⟨zext64 a.1, rfl⟩⟩
  | tlvRsize => exact ⟨_, rfl, ends_tlvRsize⟩
  | tlvGetb =>
    refine ⟨_, rfl, ends_check (by decide) fun _ => ends_check (by simp [ErrCode.num, Claims.codes]) fun h => ?_⟩
    exact ends_ok (.cursor _ (Nat.not_le.mp h))

/-- A command ends with `done` after one of its effects, or reports one of its errors. -/
theorem exec_ends_cases (i : Instr) (s : State) :
    (∃ u, Effect s i u ∧ exec i s = .next u.done)
      ∨ ∃ e, e.code.num ∈ Claims.codes i ∧ exec i s = .next ((stateToReportOn i s).raise e) := by
  by_cases hdec : i = .hdec
  · subst hdec
    obtain ⟨hcap, hx⟩ | ⟨hcap, ⟨e, he, hx⟩ | ⟨r, hr, hx⟩⟩ := execHdec_cases s
    · exact .inr ⟨⟨.invalidOperand, 4, 0⟩, by decide, by rw [stateToReportOn_hdec_of_len_above_cap hcap]; exact hx⟩
    · refine .inr ⟨e, ?_, by rw [stateToReportOn_hdec_of_len_le_cap hcap]; exact hx⟩
      exact raisesIn_mono (raisesIn_hdecParse _ _ _) (by decide) e he
    · exact .inl ⟨_, .hdec hcap hr, hx⟩
  · obtain ⟨r, hx, hr⟩ := exec_eq_finish_ends hdec s
    cases r with
    | ok u => exact .inl ⟨u, hr.writes u rfl, hx⟩
    | error e => exact .inr ⟨e, hr.raises e rfl, by rw [stateToReportOn_of_ne_hdec hdec]; exact hx⟩

/-- `exec_ends_cases` for a command whose next state is known. -/
theorem exec_cases {t : State} (h : exec i s = .next t) :
    (∃ u, Effect s i u ∧ t = u.done) ∨ ∃ e, t = (stateToReportOn i s).raise e := by
  obtain ⟨u, hu, hx⟩ | ⟨e, -, hx⟩ := exec_ends_cases i s <;> cases hx.symm.trans h
  · exact .inl ⟨u, hu, rfl⟩
  · exact .inr ⟨e, rfl⟩

end

/-- Settles O57: `done` leaves STATUS and ERRINFO 0, and `raise` writes the number of a code of the command. -/
theorem statusCodesPerCommand : Obligations.StatusCodesPerCommand := by
  intro i s
  obtain ⟨u, -, hx⟩ | ⟨e, he, hx⟩ := exec_ends_cases i s
  · exact ⟨_, hx, .inl ⟨rfl, rfl⟩⟩
  · exact ⟨_, hx, .inr (by rwa [State.raise_status, e.toNat_statusWord])⟩

end Sys2Proof.Machine
end

section
/-!
What the commands keep (10_state.md section 5): the cursor in order (R41), the invariant of the whole block, and the
statements about them. Each is a case analysis over `Effect`.
-/

namespace Sys2Proof.Machine

-- One declaration after another: elaborated in parallel they take more memory than a check has.
set_option Elab.async false

/-! ## The shared writes as record updates -/

section
variable (s : State)

/-- Writing a length register replaces it and its buffer, and nothing else. -/
theorem State.setLen_eq (b : BufName) (v : Word16) :
    s.setLen b v = (s.setBuf b ((s.setLen b v).buf b)).putLen b v := by
  rw [State.buf_setLen, State.setLen]
  split
  · rfl
  · rw [State.setBuf_buf]

/-- The same after storing bytes in the buffer. -/
theorem State.setLen_writeBytes_eq (b : BufName) (i : Nat) (bs : List Byte) (v : Word16) :
    (s.writeBytes b i bs).setLen b v = (s.setBuf b (((s.writeBytes b i bs).setLen b v).buf b)).putLen b v := by
  rw [State.setLen_eq, State.buf_putLen, State.buf_setBuf, State.writeBytes, State.setBuf_setBuf]

theorem State.storeString_eq_with (k n : Nat) :
    s.storeString k n = { s with
      str := (s.storeString k n).str, strLen := BitVec.ofNat 16 n, tlbCur := BitVec.ofNat 16 (k + n) } := by
  rw [State.storeString, State.setLen_writeBytes_eq]
  rfl

theorem State.putRx_eq_with (r : ParsedFrame) :
    s.putRx r = { s with
      rxp := (s.putRx r).rxp, rxpLen := BitVec.ofNat 16 r.pay.length, rxCmd := r.cmd.index.setWidth 4,
      rxCtrl := r.ctrl, rxClient := r.client, rxLog := r.log, rxPhy := r.phy, rxAlen := BitVec.ofNat 3 r.alen,
      rxSss := r.sss, rxRrr := r.rrr } := by
  rw [State.putRx, State.setLen_writeBytes_eq]
  rfl

end

/-! ## The cursor -/

section
variable {s t u : State} {i : Instr}

theorem State.cursorOk_done (h : s.cursorOk) : s.done.cursorOk := h

theorem State.cursorOk_raise (h : s.cursorOk) (e : CmdError) : (s.raise e).cursorOk := h

theorem cursorOk_of_effect (hwf : s.params.wf = true) (hs : s.cursorOk) (hu : Effect s i u) : u.cursorOk := by
  have hcap := tlbCap_lt_of_wf hwf
  obtain ⟨hcur, hlen⟩ := id hs
  cases hu with
  | registers => exact hs
  | srst => exact ⟨Nat.le_refl 0, Nat.zero_le _⟩
  | tlvClr =>
    rw [State.setLen_tlb_zero]
    exact ⟨Nat.le_refl 0, Nat.zero_le _⟩
  | cursor v hc => exact ⟨(Nat.mod_le _ _).trans hc, hlen⟩
  | @append _ bs hi hfit =>
    rw [State.setLen_writeBytes_eq]
    have hnew : (BitVec.ofNat 16 (s.tlbLen.toNat + bs.length)).toNat = s.tlbLen.toNat + bs.length :=
      Nat.mod_eq_of_lt (by omega)
    constructor
    · change s.tlbCur.toNat ≤ (BitVec.ofNat 16 _).toNat
      omega
    · change (BitVec.ofNat 16 _).toNat ≤ s.params.tlbCap
      omega
  | xferT2p hfit =>
    rw [State.copyBuf_eq_putLen_setBuf]
    exact hs
  | xferP2t hfit =>
    rw [State.copyBuf_eq_putLen_setBuf]
    exact ⟨Nat.zero_le _, hfit⟩
  | xferF2r =>
    rw [State.copyBuf_eq_putLen_setBuf]
    exact hs
  | henc hF =>
    rw [State.storeFrame_eq_with]
    exact hs
  | string v hi hend hfit =>
    rw [State.storeString_eq_with]
    exact ⟨(Nat.mod_le _ _).trans hend, hlen⟩
  | hdec hrcap hr =>
    rw [State.putRx_eq_with]
    exact hs

theorem cursorOk_stateToReportOn (hs : s.cursorOk) : (stateToReportOn i s).cursorOk := by
  unfold stateToReportOn
  split
  · rw [State.clearRx_eq_with]
    exact hs
  · exact hs

end

/-- Settles O53: no effect takes the cursor past TLB_LEN or TLB_LEN past TLB_CAP, and a report touches neither. -/
theorem commandsKeepTheCursorInOrder : Obligations.CommandsKeepTheCursorInOrder := by
  intro i s t hwf hs h
  obtain ⟨u, hu, rfl⟩ | ⟨e, rfl⟩ := exec_cases h
  · exact State.cursorOk_done (cursorOk_of_effect hwf hs hu)
  · exact State.cursorOk_raise (cursorOk_stateToReportOn hs) e

/-! ## The buffers -/

/-- A buffer in canonical form that holds no byte at or above `cap`. -/
def Buf.ok (cap : Nat) (x : Buf) : Prop := x.cells.wf ∧ ∀ c ∈ x.cells, c.1 < cap

section
variable {cap : Nat} {x : Buf}

theorem Buf.ok_write (h : x.ok cap) {i : Nat} {bs : List Byte} (hfit : ∀ j, i ≤ j → j < i + bs.length → j < cap) :
    (x.write i bs).ok cap := by
  obtain ⟨hwf, hcap⟩ := h
  refine ⟨Memory.wf_write hwf i bs, fun c hc => ?_⟩
  obtain hold | ⟨hlo, hhi⟩ := Memory.mem_write hc
  · exact hcap c hold
  · exact hfit c.1 hlo hhi

theorem Buf.ok_truncate (h : x.ok cap) (n : Nat) : (x.truncate n).ok cap := by
  obtain ⟨hwf, hcap⟩ := h
  exact ⟨Memory.wf_below hwf n, fun c hc => hcap c (Memory.mem_below hc).1⟩

end

section
variable {s : State}

theorem State.buffersOk_setBuf (h : s.buffersOk) {b : BufName} {x : Buf} (hx : x.ok (s.cap b)) :
    (s.setBuf b x).buffersOk := by
  intro b'
  rw [State.cap_setBuf]
  by_cases hb : b' = b
  · subst hb
    rwa [State.buf_setBuf]
  · rw [State.buf_setBuf_ne s hb]
    exact h b'

theorem State.buffersOk_writeBytes (h : s.buffersOk) {b : BufName} {i : Nat} {bs : List Byte}
    (hfit : ∀ j, i ≤ j → j < i + bs.length → j < s.cap b) : (s.writeBytes b i bs).buffersOk :=
  State.buffersOk_setBuf h (Buf.ok_write (h b) hfit)

theorem State.buffersOk_putLen (h : s.buffersOk) (b : BufName) (v : Word16) : (s.putLen b v).buffersOk := by
  intro b'
  rw [State.buf_putLen, State.cap, State.putLen_params]
  exact h b'

theorem State.buffersOk_setLen (h : s.buffersOk) (b : BufName) (v : Word16) : (s.setLen b v).buffersOk := by
  unfold State.setLen
  split
  · exact State.buffersOk_putLen (State.buffersOk_setBuf h (Buf.ok_truncate (h b) _)) b v
  · exact State.buffersOk_putLen h b v

/-- Bytes that fit from the start of a buffer, and then any length. -/
theorem State.buffersOk_setLen_writeBytes (h : s.buffersOk) {b : BufName} {i : Nat} {bs : List Byte} (v : Word16)
    (hfit : i + bs.length ≤ s.cap b) : ((s.writeBytes b i bs).setLen b v).buffersOk :=
  State.buffersOk_setLen (State.buffersOk_writeBytes h fun _ _ hj => hj.trans_le hfit) b v

theorem State.buffersOk_clearAll (h : s.buffersOk) : s.clearAll.buffersOk := by
  intro b
  rw [State.buf_clearAll]
  exact Buf.ok_truncate (h b) 0

/-- The invariant about the buffers looks at the buffers and the parameters only. -/
theorem State.buffersOk_congr {t : State} (hbuf : ∀ b, t.buf b = s.buf b) (hpar : t.params = s.params)
    (h : s.buffersOk) : t.buffersOk := by
  intro b
  rw [hbuf, State.cap, hpar]
  exact h b

end

/-! ## What HDEC returns -/

section
variable {F : List Byte} {p : Config.Params} {sel : Bool} {r : ParsedFrame}

/-- The record that HDEC makes of the parts it has read (44_hdlc_decode.md R183). -/
def recordOf (d : List Byte) (client ctrl : Byte) (cmd : FrameCmd) (pay : List Byte) : ParsedFrame where
  cmd := cmd
  ctrl := ctrl
  client := client
  log := (serverOf d).1
  phy := (serverOf d).2
  alen := d.length
  sss := if cmd = .I then ctrlSend ctrl else 0
  rrr := if cmd = .I then ctrlRecv ctrl else 0
  pay := pay

/-- The steps of HDEC up to its result, each by its own function. -/
theorem hdecParse_eq_ok :
    hdecParse p sel F = .ok r ↔
      hdecEnvelope F = .ok () ∧ ∃ d client c info cmd pay, hdecAddresses F = .ok (d, client, c)
        ∧ hdecInfo F c = .ok info ∧ hdecPayload p sel c (byteOf F c) info = .ok (cmd, pay)
        ∧ r = recordOf d client (byteOf F c) cmd pay := by
  constructor
  · intro h
    obtain ⟨⟨⟩, henv, h⟩ := bind_eq_ok.mp h
    obtain ⟨⟨d, client, c⟩, haddr, h⟩ := bind_eq_ok.mp h
    obtain ⟨info, hinfo, h⟩ := bind_eq_ok.mp h
    obtain ⟨⟨cmd, pay⟩, hpay, h⟩ := bind_eq_ok.mp h
    cases h
    exact ⟨henv, d, client, c, info, cmd, pay, haddr, hinfo, hpay, rfl⟩
  · rintro ⟨henv, d, client, c, info, cmd, pay, haddr, hinfo, hpay, rfl⟩
    simp only [hdecParse, henv, haddr, hinfo, hpay, ok_bind]
    rfl

theorem hdecWalk_length {limit room q q' : Nat} {d : List Byte} (h : hdecWalk F limit room q = .ok (d, q')) :
    1 ≤ d.length ∧ d.length ≤ room := by
  induction room generalizing q d with
  | zero => cases h
  | succ room ih =>
    unfold hdecWalk at h
    split at h
    · cases h
    · split at h
      · cases h
        exact ⟨Nat.le_refl 1, by simp⟩
      · split at h
        next => cases h
        next d' q'' hd =>
          cases h
          obtain ⟨hlo, hhi⟩ := ih hd
          exact ⟨by simp, by simpa using hhi⟩

/-- The server address that HDEC accepts has one, two or four bytes, and the client address seven bits. -/
theorem hdecAddresses_eq_ok {d : List Byte} {client : Byte} {c : Nat} (h : hdecAddresses F = .ok (d, client, c)) :
    (d.length = 1 ∨ d.length = 2 ∨ d.length = 4) ∧ ∃ b : BitVec 7, client = b.setWidth 8 := by
  obtain ⟨⟨d', q⟩, hwalk, h⟩ := bind_eq_ok.mp h
  obtain ⟨_, hthree, h⟩ := bind_eq_ok.mp h
  obtain ⟨_, -, h⟩ := bind_eq_ok.mp h
  obtain ⟨_, -, h⟩ := bind_eq_ok.mp h
  cases h
  have hlen := hdecWalk_length hwalk
  have hne := raiseIf_eq_ok.mp hthree
  exact ⟨by omega, _, rfl⟩

/-- Steps 11 to 14: bit 4, the classification, the LLC header of an I or UI frame, and the capacity. -/
theorem hdecPayload_eq_ok {c : Nat} {ctrl : Byte} {info pay : List Byte} {cmd : FrameCmd} :
    hdecPayload p sel c ctrl info = .ok (cmd, pay) ↔
      ctrl.getLsbD 4 = true ∧ p.tags.classify ctrl = some cmd
        ∧ ((cmd = .I ∨ cmd = .UI) → info.take 3 = llcRx sel)
        ∧ pay = (if cmd = .I ∨ cmd = .UI then info.drop 3 else info) ∧ pay.length ≤ p.payCap := by
  constructor
  · intro h
    obtain ⟨_, hbit, h⟩ := bind_eq_ok.mp h
    cases hc : p.tags.classify ctrl with
    | none => rw [hc] at h; cases h
    | some cmd' =>
      simp only [hc] at h
      obtain ⟨_, hllc, h⟩ := bind_eq_ok.mp h
      obtain ⟨_, hfit, h⟩ := bind_eq_ok.mp h
      cases h
      refine ⟨by simpa using raiseIf_eq_ok.mp hbit, rfl, fun hcmd => ?_, rfl, Nat.not_lt.mp (raiseIf_eq_ok.mp hfit)⟩
      exact not_not.mp fun hne => raiseIf_eq_ok.mp hllc ⟨hcmd, hne⟩
  · rintro ⟨hbit, hclass, hllc, rfl, hfit⟩
    rw [hdecPayload, raiseIf_bind, if_neg (by simp [hbit]), hclass]
    dsimp only
    rw [raiseIf_bind, if_neg fun hbad => hbad.2 (hllc hbad.1), raiseIf_bind, if_neg (Nat.not_lt.mpr hfit)]
    rfl

/-- Step 10: no information field, or one of at least three bytes with its HCS. -/
theorem hdecInfo_eq_ok {c : Nat} {info : List Byte} :
    hdecInfo F c = .ok info ↔
      F.length - 3 - (c + 1) = 0 ∧ info = []
        ∨ 3 ≤ F.length - 3 - (c + 1)
          ∧ crc16 (slice F 1 (c + 1)) = ofLe16 (byteOf F (c + 1)) (byteOf F (c + 2))
          ∧ info = slice F (c + 3) (F.length - 3) := by
  rw [hdecInfo, raiseIf_bind]
  split
  · simp only [reduceCtorEq, false_iff]
    omega
  · split
    · simp only [pure, Except.pure, Except.ok.injEq]
      constructor
      · rintro rfl; exact .inl ⟨‹_›, rfl⟩
      · rintro (⟨-, rfl⟩ | ⟨h3, -⟩)
        · rfl
        · omega
    · rw [raiseIf_bind]
      split
      · simp only [reduceCtorEq, false_iff]
        rintro (⟨h0, -⟩ | ⟨-, hcrc, -⟩) <;> contradiction
      · simp only [pure, Except.pure, Except.ok.injEq]
        constructor
        · rintro rfl; exact .inr ⟨by omega, not_not.mp ‹_›, rfl⟩
        · rintro (⟨h0, -⟩ | ⟨-, -, rfl⟩)
          · contradiction
          · rfl

theorem toNat_setWidth_addrBits (b : Byte) : ((addrBits b).setWidth 16).toNat ≤ 127 := by
  rw [BitVec.toNat_setWidth_of_le (by decide)]
  omega

theorem toNat_setWidth_addrBits_append (b b' : Byte) :
    ((addrBits b ++ addrBits b' : BitVec 14).setWidth 16).toNat ≤ 16383 := by
  rw [BitVec.toNat_setWidth_of_le (by decide)]
  omega

/-- The addresses of 1, 2 or 4 server address bytes are in the ranges of 10_state.md R40. -/
theorem serverOf_ranges {d : List Byte} (h : d.length = 1 ∨ d.length = 2 ∨ d.length = 4) :
    d.length = 1 ∧ (serverOf d).1.toNat ≤ 127 ∧ (serverOf d).2 = 0
      ∨ d.length = 2 ∧ (serverOf d).1.toNat ≤ 127 ∧ (serverOf d).2.toNat ≤ 127
      ∨ d.length = 4 ∧ (serverOf d).1.toNat ≤ 16383 ∧ (serverOf d).2.toNat ≤ 16383 := by
  match d, h with
  | [b0], _ => exact .inl ⟨rfl, toNat_setWidth_addrBits b0, rfl⟩
  | [b0, b1], _ => exact .inr (.inl ⟨rfl, toNat_setWidth_addrBits b0, toNat_setWidth_addrBits b1⟩)
  | [b0, b1, b2, b3], _ =>
    exact .inr (.inr ⟨rfl, toNat_setWidth_addrBits_append b0 b1, toNat_setWidth_addrBits_append b2 b3⟩)

theorem toNat_index_setWidth (c : FrameCmd) : (c.index.setWidth 4).toNat = Claims.cmdNumber c := by
  cases c <;> rfl

/-- A record that HDEC returns is legal (10_state.md R40), and its payload fits. -/
theorem resultsOk_putRx (h : hdecParse p sel F = .ok r) (s : State) :
    (s.putRx r).resultsOk ∧ r.pay.length ≤ p.payCap := by
  obtain ⟨-, d, client, c, info, cmd, pay, haddr, -, hpay, rfl⟩ := hdecParse_eq_ok.mp h
  obtain ⟨hlen, b, rfl⟩ := hdecAddresses_eq_ok haddr
  obtain ⟨hbit, -, -, -, hfit⟩ := hdecPayload_eq_ok.mp hpay
  refine ⟨.inr ⟨?_, hbit, ?_, ?_, ?_⟩, hfit⟩
  · change (cmd.index.setWidth 4).toNat ≤ 8
    cases cmd <;> decide
  · change (b.setWidth 8).toNat ≤ 127
    rw [BitVec.toNat_setWidth_of_le (by decide)]
    omega
  · refine (serverOf_ranges hlen).imp (fun h1 => ?_) (Or.imp (fun h2 => ?_) fun h4 => ?_)
    · exact ⟨congrArg (BitVec.ofNat 3) h1.1, h1.2⟩
    · exact ⟨congrArg (BitVec.ofNat 3) h2.1, h2.2⟩
    · exact ⟨congrArg (BitVec.ofNat 3) h4.1, h4.2⟩
  · by_cases hI : cmd = .I
    · subst hI
      exact .inl rfl
    · exact .inr ⟨if_neg hI, if_neg hI⟩

end

/-! ## The invariant of the block -/

theorem CmdError.infoWord_reserved (e : CmdError) : e.infoWord.extractLsb' 24 8 = 0 := by
  apply BitVec.eq_of_toNat_eq
  rw [e.infoWord_eq_mod, BitVec.extractLsb'_toNat, BitVec.toNat_ofNat, Nat.shiftRight_eq_div_pow]
  change _ = 0
  omega

section
variable {s t u : State} {i : Instr}

theorem State.Inv.done (h : s.Inv) : s.done.Inv :=
  { h with
    status := Nat.zero_le _, errinfo := BitVec.extractLsb'_zero,
    buffers := State.buffersOk_congr s.buf_done rfl h.buffers }

theorem State.Inv.raise (h : s.Inv) (e : CmdError) : (s.raise e).Inv :=
  { h with
    status := by rw [State.raise_status, e.toNat_statusWord]; exact e.code.num_mem_Icc.2
    errinfo := e.infoWord_reserved
    errsticky := by
      rw [State.raise_errsticky, BitVec.and_or_distrib_right, h.errsticky, e.stickyWord_and_reserved]
      rfl
    buffers := State.buffersOk_congr (fun b => by cases b <;> rfl) rfl h.buffers }

theorem State.Inv.clearAll (h : s.Inv) : s.clearAll.Inv where
  params := h.params
  status := Nat.zero_le _
  errinfo := BitVec.extractLsb'_zero
  errsticky := BitVec.zero_and
  cfg := BitVec.zero_and
  txfLen := Nat.zero_le _
  rxpLen := Nat.zero_le _
  results := .inl ⟨rfl, rfl, rfl, rfl, rfl, rfl, rfl, rfl, rfl⟩
  buffers := State.buffersOk_clearAll h.buffers

/-- Bytes that are stored below the capacity. -/
theorem State.Inv.writeBytes (h : s.Inv) {b : BufName} {k : Nat} {bs : List Byte}
    (hfit : ∀ j, k ≤ j → j < k + bs.length → j < s.cap b) : (s.writeBytes b k bs).Inv := by
  have hbuf := State.buffersOk_writeBytes h.buffers hfit
  cases b <;> exact { h with buffers := hbuf }

/-- A length register other than RXP_LEN, which is one of the decoder's results; TXF_LEN stays within FRAME_CAP. -/
theorem State.Inv.setLen (h : s.Inv) {b : BufName} (hb : b ≠ .rxp) {v : Word16} (hv : b = .txf → v.toNat ≤ s.cap b) :
    (s.setLen b v).Inv := by
  have hbuf := State.buffersOk_setLen h.buffers b v
  rw [State.setLen_eq] at hbuf ⊢
  cases b with
  | rxp => contradiction
  | txf => exact { h with txfLen := hv rfl, buffers := hbuf }
  | _ => exact { h with buffers := hbuf }

/-- Bytes that fit, and a length that fits. -/
theorem State.Inv.store (h : s.Inv) {b : BufName} (hb : b ≠ .rxp) {k : Nat} {bs : List Byte} {v : Word16}
    (hfit : k + bs.length ≤ s.cap b) (hv : v.toNat ≤ s.cap b) : ((s.writeBytes b k bs).setLen b v).Inv := by
  refine (h.writeBytes fun _ _ hj => hj.trans_le hfit).setLen hb fun _ => ?_
  rwa [State.cap_writeBytes]

/-- Registers that the invariant says nothing about. -/
theorem State.Inv.registers (h : s.Inv) (a : Word16) (x y : BitVec 3) (v : Word64) (c : Word16) :
    State.Inv { s with crcAcc := a, sss := x, rrr := y, val := v, tlbCur := c } :=
  { h with buffers := State.buffersOk_congr (fun b => by cases b <;> rfl) rfl h.buffers }

theorem State.Inv.errsticky_zero (h : s.Inv) : State.Inv { s with errsticky := 0 } :=
  { h with
    errsticky := BitVec.zero_and, buffers := State.buffersOk_congr (fun b => by cases b <;> rfl) rfl h.buffers }

theorem State.Inv.copyBuf (h : s.Inv) {src dst : BufName} (hdst : dst ≠ .rxp) {n : Word16}
    (hfit : n.toNat ≤ s.cap dst) : (s.copyBuf src dst n).Inv :=
  h.store hdst (by simpa using hfit) hfit

/-- A record of HDEC whose frame was accepted under the parameters of the state. -/
theorem State.Inv.putRx (h : s.Inv) {sel : Bool} {F : List Byte} {r : ParsedFrame}
    (hr : hdecParse s.params sel F = .ok r) : (s.putRx r).Inv := by
  obtain ⟨hresults, hfit⟩ := resultsOk_putRx hr s
  have hbuf : (s.putRx r).buffersOk :=
    State.buffersOk_congr (fun b => by cases b <;> rfl) rfl
      (State.buffersOk_setLen_writeBytes h.buffers (b := .rxp) (i := 0) (bs := r.pay)
        (BitVec.ofNat 16 r.pay.length) ((Nat.zero_add _).trans_le hfit))
  rw [State.putRx_eq_with] at hresults hbuf ⊢
  exact { h with results := hresults, rxpLen := (Nat.mod_le _ _).trans hfit, buffers := hbuf }

theorem State.Inv.clearRx (h : s.Inv) : s.clearRx.Inv := by
  have hbuf : s.clearRx.buffersOk :=
    State.buffersOk_congr (fun b => by cases b <;> rfl) rfl (State.buffersOk_setLen h.buffers .rxp 0)
  rw [State.clearRx_eq_with] at hbuf ⊢
  exact { h with
    rxpLen := Nat.zero_le _, results := .inl ⟨rfl, rfl, rfl, rfl, rfl, rfl, rfl, rfl, rfl⟩, buffers := hbuf }

/-- A frame that HENC builds fits in TXF (30_encoding.md R86). -/
theorem length_le_frameCap_of_hencFrame {c : FrameCmd} {F : List Byte} (h : s.hencFrame c = .ok F) :
    F.length ≤ Config.frameCap := by
  obtain ⟨na, hchecks, h⟩ := bind_eq_ok.mp h
  obtain ⟨_, hfit, h⟩ := bind_eq_ok.mp h
  cases h
  rw [State.length_txFrame hchecks]
  exact Nat.add_le_add_right (Nat.not_lt.mp (raiseIf_eq_ok.mp hfit)) 2

theorem inv_of_effect (hs : s.Inv) (hu : Effect s i u) : u.Inv := by
  cases hu with
  | registers a x y e he =>
    obtain rfl | rfl := he
    · exact hs.registers a x y s.val s.tlbCur
    · exact (hs.registers a x y s.val s.tlbCur).errsticky_zero
  | srst => exact hs.clearAll
  | tlvClr =>
    have hlen := hs.setLen (b := .tlb) (v := 0) (by decide) (by rintro ⟨⟩)
    exact hlen.registers _ _ _ _ 0
  | cursor v hc => exact hs.registers s.crcAcc s.sss s.rrr v _
  | append hi hfit => exact hs.store (by decide) hfit ((Nat.mod_le _ _).trans hfit)
  | xferT2p hfit => exact hs.copyBuf (by decide) hfit
  | xferP2t hfit =>
    have hcopy := hs.copyBuf (src := .rxp) (dst := .tlb) (by decide) hfit
    exact hcopy.registers _ _ _ _ 0
  | xferF2r => exact hs.copyBuf (by decide) hs.txfLen
  | henc hF =>
    have hlen := length_le_frameCap_of_hencFrame hF
    exact hs.store (by decide) ((Nat.zero_add _).trans_le hlen) ((Nat.mod_le _ _).trans hlen)
  | @string _ v k n hi hend hfit =>
    have hstore := hs.store (b := .str) (by decide) (k := 0) (bs := s.readBytes .tlb k n) (v := BitVec.ofNat 16 n)
      (by rwa [State.length_readBytes, Nat.zero_add]) ((Nat.mod_le _ _).trans hfit)
    exact hstore.registers _ _ _ v _
  | hdec hrcap hr => exact hs.putRx hr

theorem inv_of_exec (hs : s.Inv) (h : exec i s = .next t) : t.Inv := by
  obtain ⟨u, hu, rfl⟩ | ⟨e, rfl⟩ := exec_cases h
  · exact (inv_of_effect hs hu).done
  · refine State.Inv.raise ?_ e
    unfold stateToReportOn
    split
    · exact hs.clearRx
    · exact hs

/-! ### The host's accesses -/

/-- The masked CFG has no reserved bit (10_state.md R26). -/
theorem cfg_reserved (v : Byte) : v &&& 0x07 &&& 0xF8 = 0 := by
  rw [BitVec.and_assoc]
  exact BitVec.and_zero

theorem State.Inv.writeReg (h : s.Inv) (r : Reg) (v : Word64) : (s.writeReg r v).Inv := by
  cases r with
  | strLen | txpLen | rxfLen | tlbLen => exact h.setLen (by decide) (by rintro ⟨⟩)
  | cfg =>
    exact { h with
      cfg := cfg_reserved _, buffers := State.buffersOk_congr (fun b => by cases b <;> rfl) rfl h.buffers }
  | _ => exact { h with buffers := State.buffersOk_congr (fun b => by cases b <;> rfl) rfl h.buffers }

theorem State.Inv.hostWriteBytes (h : s.Inv) (b : BufName) (k : Nat) (bs : List Byte) :
    (s.hostWriteBytes b k bs).Inv := by
  unfold State.hostWriteBytes
  split
  · exact h.writeBytes fun j hlo hhi => by rw [List.length_take] at hhi; omega
  · exact h

/-- The model's own fields are none of the invariant's. -/
theorem State.Inv.bookkeeping (h : s.Inv) (w : Word16) (q : List HostAction) (x : BusRead) (n : Nat) :
    State.Inv { s with cmd := w, hostQueue := q, busRead := x, hostReads := n } :=
  { h with buffers := State.buffersOk_congr (fun b => by cases b <;> rfl) rfl h.buffers }

theorem inv_of_hostAccess (hs : s.Inv) {a : HostAction} (h : s.hostAccess a = .next t) : t.Inv := by
  cases a with
  | wr r v => cases h; exact hs.writeReg r v
  | wrb b k bs => cases h; exact hs.hostWriteBytes b k bs
  | rd r => cases h; exact hs.bookkeeping s.cmd s.hostQueue _ s.hostReads
  | rdb b k n =>
    simp only [State.hostAccess] at h
    split at h
    · cases h
    · cases h; exact hs.bookkeeping s.cmd s.hostQueue _ _
  | reset => cases h; exact hs.clearAll.bookkeeping 0 _ _ _

theorem inv_of_runCommand (hs : s.Inv) {w : Word16} (h : runCommand w s = .next t) : t.Inv := by
  have hw : State.Inv { s with cmd := w } := hs.bookkeeping w s.hostQueue s.busRead s.hostReads
  unfold runCommand at h
  split at h
  · exact inv_of_exec hw h
  · cases h
    exact hw.raise illegalCommand

theorem inv_of_perform (hs : s.Inv) {a : HostAction} (h : perform a s = .next t) : t.Inv := by
  unfold perform at h
  split at h
  · exact inv_of_runCommand hs h
  · exact inv_of_hostAccess hs h

end

/-- Settles O51: a step is nothing, a host access or a command, and each of their writes keeps the invariant. -/
theorem stepKeepsTheInvariant : Obligations.StepKeepsTheInvariant := by
  intro s t hs h
  cases hq : s.hostQueue with
  | nil =>
    cases (step_nil hq).symm.trans h
    exact hs
  | cons a rest =>
    rw [step_cons hq] at h
    exact inv_of_perform (hs.bookkeeping s.cmd rest s.busRead s.hostReads) h

end Sys2Proof.Machine
end

section
/-!
What a command reads (20_memory.md R61, 10_state.md R43). `Alike ρ s s'` says that two states agree in all but their
buffers and that each pair of buffers is related by `ρ`; `exec_alike` says that a command keeps it when `ρ` lets the
bytes agree that the command reads. One `ρ` is equality but for one buffer, another equality below the length register.
-/

namespace Sys2Proof.Machine

-- One declaration after another: elaborated in parallel they take more memory than a check has.
set_option Elab.async false

/-! ## Relations between buffers -/

/-- A buffer after bytes are stored and its length register goes from `old` to `new`. -/
def Buf.stored (x : Buf) (k : Nat) (bs : List Byte) (old new : Word16) : Buf :=
  if new < old then (x.write k bs).truncate new.toNat else x.write k bs

theorem State.buf_store (s : State) (b : BufName) (k : Nat) (bs : List Byte) (v : Word16) :
    ((s.writeBytes b k bs).setLen b v).buf b = (s.buf b).stored k bs (s.len b) v := by
  rw [State.buf_setLen, State.len_writeBytes, State.buf_writeBytes, Buf.stored]

theorem State.buf_store_ne (s : State) {b b' : BufName} (h : b' ≠ b) (k : Nat) (bs : List Byte) (v : Word16) :
    ((s.writeBytes b k bs).setLen b v).buf b' = s.buf b' := by
  rw [State.buf_setLen_ne _ h, State.buf_writeBytes_ne _ h]

/-- `ρ b n x x'` relates two contents of the buffer `b` whose length register is `n`. The commands keep it: they store
bytes from the start of a buffer or from its length register on, which ends at the new length where `W` holds, or
forget the whole buffer. -/
structure BufRel (W : Prop) (ρ : BufName → Word16 → Buf → Buf → Prop) : Prop where
  store : ∀ {b old new k bs x x'}, (k = 0 ∨ k = old.toNat) → (W → new.toNat = k + bs.length) → ρ b old x x' →
    ρ b new (x.stored k bs old new) (x'.stored k bs old new)
  clear : ∀ {b old x x'}, ρ b old x x' → ρ b 0 (x.truncate 0) (x'.truncate 0)

/-- Under `ρ` the bytes of `b` below its length register agree. -/
def Readable (ρ : BufName → Word16 → Buf → Buf → Prop) (b : BufName) : Prop :=
  ∀ {n x x'}, ρ b n x x' → ∀ j, j < n.toNat → x'.byteAt b j = x.byteAt b j

/-- The two buffers are equal unless they are `b₀`. -/
def equalBut (b₀ : BufName) (b : BufName) (_ : Word16) (x x' : Buf) : Prop := b ≠ b₀ → x' = x

theorem bufRel_equalBut (b₀ : BufName) : BufRel False (equalBut b₀) where
  store _ _ h hb := by rw [h hb]
  clear h hb := by rw [h hb]

theorem readable_equalBut {b₀ b : BufName} (hb : b ≠ b₀) : Readable (equalBut b₀) b := fun h j _ => by rw [h hb]

/-- The two buffers have the same bytes below the length register. -/
def equalBelow (b : BufName) (n : Word16) (x x' : Buf) : Prop := ∀ j, j < n.toNat → x'.byteAt b j = x.byteAt b j

theorem readable_equalBelow (b : BufName) : Readable equalBelow b := fun h => h

/-- A byte that was stored is read, whether the length register is lowered or not. -/
theorem Buf.byteAt_stored {x : Buf} {b : BufName} {k j : Nat} {bs : List Byte} {old new : Word16} {c : Byte}
    (hc : bs[j]? = some c) (hj : k + j < new.toNat) : (x.stored k bs old new).byteAt b (k + j) = c := by
  have hcell : (x.cells.write k bs).get? (k + j) = some c := by
    have hlen : j < bs.length := (List.getElem?_eq_some_iff.mp hc).1
    rw [Memory.get?_write, if_pos (by omega), Nat.add_sub_cancel_left, hc]
  refine Buf.byteAt_of_get? ?_ b
  unfold Buf.stored
  split
  · exact (Memory.get?_below_of_lt hj).trans hcell
  · exact hcell

theorem bufRel_equalBelow : BufRel True equalBelow where
  clear _ j hj := absurd hj (Nat.not_lt_zero j)
  store {b old new k bs x x'} hk hnew h j hj := by
    have hend : new.toNat = k + bs.length := hnew trivial
    by_cases hjk : k ≤ j
    · obtain ⟨m, rfl⟩ := Nat.exists_eq_add_of_le hjk
      have hc : bs[m]? = some bs[m] := List.getElem?_eq_getElem (by omega)
      rw [Buf.byteAt_stored hc hj, Buf.byteAt_stored hc hj]
    · have hk' : k = old.toNat := by omega
      have hlow : ¬ new < old := by rw [BitVec.lt_def]; omega
      rw [Buf.stored, Buf.stored, if_neg hlow, if_neg hlow, Buf.byteAt_write, Buf.byteAt_write, dif_neg (by omega),
        dif_neg (by omega)]
      exact h j (by omega)

/-! ## Relations between states -/

/-- The two states agree in all but their buffers, and the buffers are related. -/
structure Alike (ρ : BufName → Word16 → Buf → Buf → Prop) (s s' : State) : Prop where
  regs : s'.withBuffers s = s
  bufs : ∀ b, ρ b (s.len b) (s.buf b) (s'.buf b)

section
variable {W : Prop} {ρ : BufName → Word16 → Buf → Buf → Prop} {s s' : State}

theorem Alike.exists_eq (h : Alike ρ s s') : ∃ u : State, s' = s.withBuffers u :=
  ⟨s', by rw [← h.regs]; rfl⟩

theorem Alike.len_eq (h : Alike ρ s s') (b : BufName) : s'.len b = s.len b := by
  obtain ⟨u, rfl⟩ := h.exists_eq
  cases b <;> rfl

/-- The same change of registers that are no length registers. -/
theorem Alike.map (h : Alike ρ s s') (f : State → State)
    (hf : ∀ w w' : State, (f w).withBuffers w' = f (w.withBuffers w') := by intro _ _; rfl)
    (hlen : ∀ (w : State) (b : BufName), (f w).len b = w.len b := by intro _ b; cases b <;> rfl)
    (hbuf : ∀ (w : State) (b : BufName), (f w).buf b = w.buf b := by intro _ b; cases b <;> rfl) :
    Alike ρ (f s) (f s') where
  regs := by
    have hw : (f s').withBuffers (f s) = (f s').withBuffers s := by
      simp only [State.withBuffers]
      simp only [show ∀ w : State, (f w).txf = w.txf from fun w => hbuf w .txf,
        show ∀ w : State, (f w).rxf = w.rxf from fun w => hbuf w .rxf,
        show ∀ w : State, (f w).txp = w.txp from fun w => hbuf w .txp,
        show ∀ w : State, (f w).rxp = w.rxp from fun w => hbuf w .rxp,
        show ∀ w : State, (f w).tlb = w.tlb from fun w => hbuf w .tlb,
        show ∀ w : State, (f w).str = w.str from fun w => hbuf w .str]
    rw [hw, hf, h.regs]
  bufs b := by rw [hlen, hbuf, hbuf]; exact h.bufs b

/-- The same bytes stored at the same place, and the same length register written. -/
theorem Alike.store (hρ : BufRel W ρ) (h : Alike ρ s s') {b : BufName} {k : Nat} {bs : List Byte} {v : Word16}
    (hk : k = 0 ∨ k = (s.len b).toNat) (hv : W → v.toNat = k + bs.length) :
    Alike ρ ((s.writeBytes b k bs).setLen b v) ((s'.writeBytes b k bs).setLen b v) where
  regs := by
    rw [State.setLen_writeBytes_eq, State.setLen_writeBytes_eq s]
    refine Eq.trans ?_ (congrArg (fun w : State => (w.setBuf b _).putLen b v) h.regs)
    cases b <;> rfl
  bufs b' := by
    by_cases hb : b' = b
    · subst hb
      rw [State.len_setLen, State.buf_store, State.buf_store, h.len_eq]
      exact hρ.store hk hv (h.bufs b')
    · rw [State.len_setLen_ne _ hb, State.len_writeBytes, State.buf_store_ne _ hb, State.buf_store_ne _ hb]
      exact h.bufs b'

theorem Alike.setLen_zero (hρ : BufRel W ρ) (h : Alike ρ s s') (b : BufName) :
    Alike ρ (s.setLen b 0) (s'.setLen b 0) where
  regs := by
    rw [State.setLen_eq, State.setLen_eq s]
    refine Eq.trans ?_ (congrArg (fun w : State => (w.setBuf b _).putLen b 0) h.regs)
    cases b <;> rfl
  bufs b' := by
    by_cases hb : b' = b
    · subst hb
      rw [State.len_setLen, State.buf_setLen, State.buf_setLen, h.len_eq]
      split
      · exact hρ.clear (h.bufs b')
      · have hzero : s.len b' = 0 := by simpa [BitVec.pos_iff_ne_zero] using ‹¬ 0 < s.len b'›
        exact hzero ▸ h.bufs b'
    · rw [State.len_setLen_ne _ hb, State.buf_setLen_ne _ hb, State.buf_setLen_ne _ hb]
      exact h.bufs b'

theorem Alike.clearAll (hρ : BufRel W ρ) (h : Alike ρ s s') : Alike ρ s.clearAll s'.clearAll where
  regs := congrArg State.clearAll h.regs
  bufs b := by
    rw [State.buf_clearAll, State.buf_clearAll, show s.clearAll.len b = 0 by cases b <;> rfl]
    exact hρ.clear (h.bufs b)

theorem Alike.byteAt (h : Alike ρ s s') {b : BufName} (hb : Readable ρ b) {j : Nat} (hj : j < (s.len b).toNat) :
    s'.byteAt b j = s.byteAt b j := hb (h.bufs b) j hj

theorem Alike.readBytes (h : Alike ρ s s') {b : BufName} (hb : Readable ρ b) {k n : Nat}
    (hend : k + n ≤ (s.len b).toNat) : s'.readBytes b k n = s.readBytes b k n :=
  State.readBytes_congr fun _ hj => h.byteAt hb (by omega)

/-- The same VAL and cursor written. -/
theorem Alike.putVal (h : Alike ρ s s') (v : Word64) (c : Nat) : Alike ρ (s.putVal v c) (s'.putVal v c) :=
  h.map (·.putVal v c)

/-! ## The ends of a command on two states -/

/-- The same error, or related states. -/
inductive AlikeEnds (ρ : BufName → Word16 → Buf → Buf → Prop) : Except CmdError State → Except CmdError State → Prop
  | error (e : CmdError) : AlikeEnds ρ (.error e) (.error e)
  | ok {t t' : State} (h : Alike ρ t t') : AlikeEnds ρ (.ok t) (.ok t')

/-- Related next states. -/
def AlikeNext (ρ : BufName → Word16 → Buf → Buf → Prop) (x x' : Host.Outcome State Fault Refusal) : Prop :=
  ∃ t t', x = .next t ∧ x' = .next t' ∧ Alike ρ t t'

theorem Alike.done (h : Alike ρ s s') : Alike ρ s.done s'.done :=
  h.map State.done

theorem Alike.raise (h : Alike ρ s s') (e : CmdError) : Alike ρ (s.raise e) (s'.raise e) :=
  h.map (·.raise e)

theorem Alike.finish (h : Alike ρ s s') {r r' : Except CmdError State} (hr : AlikeEnds ρ r r') :
    AlikeNext ρ (s.finish r) (s'.finish r') := by
  cases hr with
  | error e => exact ⟨_, _, rfl, rfl, h.raise e⟩
  | ok ht => exact ⟨_, _, rfl, rfl, ht.done⟩

theorem alikeEnds_bind {α : Type} {x x' : Except CmdError α} {f f' : α → Except CmdError State} (hx : x' = x)
    (hf : ∀ a, x = .ok a → AlikeEnds ρ (f a) (f' a)) : AlikeEnds ρ (x >>= f) (x' >>= f') := by
  subst hx
  cases hx : x' with
  | error e => exact .error e
  | ok a => exact hf a hx

theorem alikeEnds_check {c : Prop} [Decidable c] {e : CmdError} {f f' : Unit → Except CmdError State}
    (hf : ¬ c → AlikeEnds ρ (f ()) (f' ())) : AlikeEnds ρ (raiseIf c e >>= f) (raiseIf c e >>= f') :=
  alikeEnds_bind rfl fun _ hc => hf (raiseIf_eq_ok.mp hc)

/-- Two continuations of a check may differ where it fails. -/
theorem check_congr {α : Type} {c : Prop} [Decidable c] {e : CmdError} {f f' : Unit → Except CmdError α}
    (hf : ¬ c → f () = f' ()) : (raiseIf c e >>= f) = raiseIf c e >>= f' := by
  rw [raiseIf_bind, raiseIf_bind]
  split
  · rfl
  · exact hf ‹_›

/-! ### The shared operations -/

theorem Alike.append (hρ : BufRel W ρ) (h : Alike ρ s s') (hwf : W → s.params.wf = true) (bs : List Byte) :
    AlikeEnds ρ (s.append bs) (s'.append bs) := by
  obtain ⟨u, rfl⟩ := h.exists_eq
  refine alikeEnds_check fun _ => alikeEnds_check fun hfit => .ok (h.store hρ (.inr rfl) fun hW => ?_)
  have hcap := tlbCap_lt_of_wf (hwf hW)
  exact Nat.mod_eq_of_lt (by omega)

theorem Alike.copyBuf (hρ : BufRel W ρ) (h : Alike ρ s s') {src dst : BufName} (hsrc : Readable ρ src) :
    Alike ρ (s.copyBuf src dst (s.len src)) (s'.copyBuf src dst (s'.len src)) := by
  rw [State.copyBuf, State.copyBuf, h.len_eq, h.readBytes hsrc (Nat.zero_add _).le]
  exact h.store hρ (.inl rfl) fun _ => by rw [State.length_readBytes, Nat.zero_add]

theorem Alike.strBytes (h : Alike ρ s s') (hstr : Readable ρ .str) : s'.strBytes = s.strBytes := by
  rw [State.strBytes, State.strBytes, show s'.strLen = s.strLen from h.len_eq .str]
  exact h.readBytes hstr (Nat.zero_add _).le

theorem Alike.decOpen (h : Alike ρ s s') (htlb : Readable ρ .tlb) (tag : Byte) : s'.decOpen tag = s.decOpen tag := by
  obtain ⟨u, rfl⟩ := h.exists_eq
  refine check_congr fun _ => check_congr fun hcur => ?_
  have hbyte : (s.withBuffers u).tlbAt s.tlbCur.toNat = s.tlbAt s.tlbCur.toNat := h.byteAt htlb (Nat.not_le.mp hcur)
  change (raiseIf ((s.withBuffers u).tlbAt s.tlbCur.toNat ≠ tag) _ >>= _) = _
  rw [hbyte]
  rfl

theorem Alike.rsizeAt (h : Alike ρ s s') (htlb : Readable ρ .tlb) (q : Nat) : s'.rsizeAt q = s.rsizeAt q := by
  obtain ⟨u, rfl⟩ := h.exists_eq
  refine check_congr fun hq => ?_
  have hbyte : (s.withBuffers u).tlbAt q = s.tlbAt q := h.byteAt htlb (Nat.not_lt.mp hq)
  rw [hbyte]
  refine if_congr Iff.rfl rfl (check_congr fun _ => check_congr fun hend => ?_)
  rw [h.readBytes htlb (Nat.not_lt.mp hend)]

theorem Alike.decCount (h : Alike ρ s s') (htlb : Readable ρ .tlb) (t : TlvType) :
    AlikeEnds ρ (s.decCount t) (s'.decCount t) :=
  alikeEnds_bind (h.decOpen htlb _) fun _ _ => alikeEnds_bind (h.rsizeAt htlb _) fun _ _ => .ok (h.putVal _ _)

theorem Alike.decFixed (h : Alike ρ s s') (htlb : Readable ρ .tlb) (t : TlvType) (w : Nat) (conv : Nat → Word64) :
    AlikeEnds ρ (s.decFixed t w conv) (s'.decFixed t w conv) := by
  refine alikeEnds_bind (h.decOpen htlb _) fun p _ => ?_
  obtain ⟨u, rfl⟩ := h.exists_eq
  refine alikeEnds_check fun hend => ?_
  rw [h.readBytes htlb (Nat.not_lt.mp hend)]
  exact .ok (h.putVal _ _)

theorem Alike.storeString (hρ : BufRel W ρ) (h : Alike ρ s s') (htlb : Readable ρ .tlb) {k n : Nat}
    (hend : k + n ≤ s.tlbLen.toNat) : Alike ρ (s.storeString k n) (s'.storeString k n) := by
  rw [State.storeString, State.storeString, h.readBytes htlb hend]
  have hn : (BitVec.ofNat 16 n).toNat = n := Nat.mod_eq_of_lt (by omega)
  have hstore := h.store hρ (b := .str) (k := 0) (bs := s.readBytes .tlb k n) (v := BitVec.ofNat 16 n) (.inl rfl)
    fun _ => by rw [hn, State.length_readBytes, Nat.zero_add]
  exact hstore.map fun w => { w with tlbCur := BitVec.ofNat 16 (k + n) }

/-- A string decode whose last step changes registers at most. -/
theorem Alike.decString (hρ : BufRel W ρ) (h : Alike ρ s s') (htlb : Readable ρ .tlb) (t : TlvType)
    (nbytes : Nat → Nat) {g : Nat × State → State}
    (hg : ∀ (m : Nat) {w w' : State}, Alike ρ w w' → Alike ρ (g (m, w)) (g (m, w'))) :
    AlikeEnds ρ (s.decString t nbytes >>= fun a => .ok (g a)) (s'.decString t nbytes >>= fun a => .ok (g a)) := by
  simp only [State.decString, bind_assoc]
  refine alikeEnds_bind (h.decOpen htlb _) fun p _ => alikeEnds_bind (h.rsizeAt htlb _) fun mk _ => ?_
  have hstore := fun hend => h.storeString hρ htlb (k := p + 1 + mk.2) (n := nbytes mk.1) hend
  obtain ⟨u, rfl⟩ := h.exists_eq
  exact alikeEnds_check fun hend => alikeEnds_check fun _ => .ok (hg _ (hstore (Nat.not_lt.mp hend)))

theorem Alike.henc (hρ : BufRel W ρ) (h : Alike ρ s s') (htxp : Readable ρ .txp) (c : FrameCmd) :
    AlikeEnds ρ (s.henc c) (s'.henc c) := by
  have hpay : ∀ k, k < s.txpLen.toNat → s'.byteAt .txp k = s.byteAt .txp k := fun k hk => h.byteAt htxp hk
  have hframe : s'.hencFrame c = s.hencFrame c := by
    obtain ⟨u, rfl⟩ := h.exists_eq
    exact HencOperandsAgree.hencFrame_eq ⟨rfl, rfl, rfl, rfl, rfl, rfl, hpay, fun _ => ⟨rfl, rfl⟩⟩
  rw [State.henc_eq_storeFrame, State.henc_eq_storeFrame, hframe]
  cases hF : s.hencFrame c with
  | error e => exact .error e
  | ok F =>
    have hlen := length_le_frameCap_of_hencFrame hF
    refine .ok (h.store hρ (.inl rfl) fun _ => ?_)
    rw [Nat.zero_add]
    exact Nat.mod_eq_of_lt (hlen.trans_lt (by decide))

theorem length_slice_le (F : List Byte) (a b : Nat) : (slice F a b).length ≤ F.length := by
  rw [slice, List.length_take, List.length_drop]
  omega

/-- A parsed payload is a part of the frame. -/
theorem length_pay_le {p : Config.Params} {sel : Bool} {F : List Byte} {r : ParsedFrame}
    (h : hdecParse p sel F = .ok r) : r.pay.length ≤ F.length := by
  obtain ⟨-, d, client, c, info, cmd, pay, -, hinfo, hpay, rfl⟩ := hdecParse_eq_ok.mp h
  have hlen : info.length ≤ F.length := by
    obtain ⟨-, rfl⟩ | ⟨-, -, rfl⟩ := hdecInfo_eq_ok.mp hinfo
    · exact Nat.zero_le _
    · exact length_slice_le F _ _
  obtain ⟨-, -, -, rfl, -⟩ := hdecPayload_eq_ok.mp hpay
  change (if cmd = .I ∨ cmd = .UI then info.drop 3 else info).length ≤ _
  split
  · rw [List.length_drop]
    omega
  · exact hlen

theorem Alike.putRx (hρ : BufRel W ρ) (h : Alike ρ s s') {r : ParsedFrame} (hr : r.pay.length < 65536) :
    Alike ρ (s.putRx r) (s'.putRx r) := by
  have hstore := h.store hρ (b := .rxp) (k := 0) (bs := r.pay) (v := BitVec.ofNat 16 r.pay.length) (.inl rfl)
    fun _ => by rw [Nat.zero_add]; exact Nat.mod_eq_of_lt hr
  exact hstore.map fun w => { w with
    rxCmd := r.cmd.index.setWidth 4, rxCtrl := r.ctrl, rxClient := r.client, rxLog := r.log, rxPhy := r.phy,
    rxAlen := BitVec.ofNat 3 r.alen, rxSss := r.sss, rxRrr := r.rrr }

theorem Alike.clearRx (hρ : BufRel W ρ) (h : Alike ρ s s') : Alike ρ s.clearRx s'.clearRx :=
  (h.setLen_zero hρ .rxp).map fun w => { w with
    rxCmd := 15, rxCtrl := 0, rxClient := 0, rxLog := 0, rxPhy := 0, rxAlen := 0, rxSss := 0, rxRrr := 0 }

theorem Alike.execHdec (hρ : BufRel W ρ) (h : Alike ρ s s') (hrxf : Readable ρ .rxf) :
    AlikeNext ρ (execHdec s) (execHdec s') := by
  have hframe : s'.rxFrame = s.rxFrame := by
    rw [State.rxFrame, State.rxFrame, show s'.rxfLen = s.rxfLen from h.len_eq .rxf]
    exact h.readBytes hrxf (Nat.zero_add _).le
  have hput := fun r hr => h.putRx hρ (r := r) hr
  have hclear := h.clearRx hρ
  have hraise := h.raise ⟨.invalidOperand, 4, 0⟩
  obtain ⟨u, rfl⟩ := h.exists_eq
  obtain ⟨hcap, hx⟩ | ⟨hcap, ⟨e, hp, hx⟩ | ⟨r, hp, hx⟩⟩ := execHdec_cases s
  · exact ⟨_, _, hx, execHdec_of_len_above_cap (s := s.withBuffers u) hcap, hraise⟩
  · exact ⟨_, _, hx, execHdec_of_parse_error (s := s.withBuffers u) hcap (hframe ▸ hp), hclear.raise e⟩
  · refine ⟨_, _, hx, execHdec_of_parse_ok (s := s.withBuffers u) hcap (hframe ▸ hp), (hput r ?_).done⟩
    have hlen := length_pay_le hp
    rw [State.rxFrame, State.length_readBytes] at hlen
    omega

theorem Alike.encString (hρ : BufRel W ρ) (h : Alike ρ s s') (hwf : W → s.params.wf = true) (hstr : Readable ρ .str)
    (t : TlvType) : AlikeEnds ρ (s.encString t) (s'.encString t) := by
  have hbytes := h.strBytes hstr
  have happend := h.append hρ hwf (t.tag :: (wsize s.strLen.toNat ++ s.strBytes))
  obtain ⟨u, rfl⟩ := h.exists_eq
  refine alikeEnds_check fun _ => ?_
  rw [hbytes]
  exact happend

theorem Alike.execTlvEncBstr (hρ : BufRel W ρ) (h : Alike ρ s s') (hwf : W → s.params.wf = true)
    (hstr : Readable ρ .str) : AlikeNext ρ (execTlvEncBstr s) (execTlvEncBstr s') := by
  have hbytes := h.strBytes hstr
  have happend := h.append hρ hwf (TlvType.bstr.tag :: (wsize s.count ++ s.strBytes))
  refine h.finish ?_
  obtain ⟨u, rfl⟩ := h.exists_eq
  refine alikeEnds_check fun _ => alikeEnds_check fun _ => ?_
  rw [hbytes]
  exact happend

theorem Alike.execCrcUpds (h : Alike ρ s s') (hstr : Readable ρ .str) :
    AlikeNext ρ (execCrcUpds s) (execCrcUpds s') := by
  have hbytes := h.strBytes hstr
  have hacc := h.map fun w => { w with crcAcc := crcFold s.crcAcc s.strBytes }
  refine h.finish ?_
  obtain ⟨u, rfl⟩ := h.exists_eq
  refine alikeEnds_check fun _ => ?_
  change AlikeEnds ρ _ (.ok { s.withBuffers u with crcAcc := crcFold s.crcAcc (s.withBuffers u).strBytes })
  rw [hbytes]
  exact .ok hacc

theorem Alike.execTlvGetb (h : Alike ρ s s') (htlb : Readable ρ .tlb) :
    AlikeNext ρ (execTlvGetb s) (execTlvGetb s') := by
  refine h.finish ?_
  have hbyte := fun hj => h.byteAt htlb (j := s.tlbCur.toNat) hj
  obtain ⟨u, rfl⟩ := h.exists_eq
  refine alikeEnds_check fun _ => alikeEnds_check fun hcur => ?_
  have hput := h.putVal (zext64 (s.tlbAt s.tlbCur.toNat).toNat) (s.tlbCur.toNat + 1)
  change AlikeEnds ρ _ (.ok ((s.withBuffers u).putVal
    (zext64 ((s.withBuffers u).byteAt .tlb s.tlbCur.toNat).toNat) (s.tlbCur.toNat + 1)))
  rw [hbyte (Nat.not_le.mp hcur)]
  exact .ok hput

theorem Alike.execTlvRsize (h : Alike ρ s s') (htlb : Readable ρ .tlb) :
    AlikeNext ρ (execTlvRsize s) (execTlvRsize s') := by
  refine h.finish ?_
  have hrsize := h.rsizeAt htlb s.tlbCur.toNat
  obtain ⟨u, rfl⟩ := h.exists_eq
  exact alikeEnds_check fun _ => alikeEnds_bind hrsize fun _ _ => .ok (h.putVal _ _)

theorem Alike.execXferT2p (hρ : BufRel W ρ) (h : Alike ρ s s') (htlb : Readable ρ .tlb) :
    AlikeNext ρ (execXferT2p s) (execXferT2p s') := by
  have hcopy := h.copyBuf hρ (dst := .txp) htlb
  refine h.finish ?_
  obtain ⟨u, rfl⟩ := h.exists_eq
  exact alikeEnds_check fun _ => alikeEnds_check fun _ => .ok hcopy

theorem Alike.execXferP2t (hρ : BufRel W ρ) (h : Alike ρ s s') (hrxp : Readable ρ .rxp) :
    AlikeNext ρ (execXferP2t s) (execXferP2t s') := by
  have hcopy := (h.copyBuf hρ (dst := .tlb) hrxp).map fun w => { w with tlbCur := 0 }
  refine h.finish ?_
  obtain ⟨u, rfl⟩ := h.exists_eq
  exact alikeEnds_check fun _ => .ok hcopy

theorem Alike.execXferF2r (hρ : BufRel W ρ) (h : Alike ρ s s') (htxf : Readable ρ .txf) :
    AlikeNext ρ (execXferF2r s) (execXferF2r s') :=
  h.finish (.ok (h.copyBuf hρ (dst := .rxf) htxf))

/-- A command keeps a relation of the buffers under which the bytes agree that it reads. -/
theorem exec_alike (hρ : BufRel W ρ) (h : Alike ρ s s') (hwf : W → s.params.wf = true) (i : Instr)
    (hread : ∀ b ∈ Claims.readsBuf i, Readable ρ b) : AlikeNext ρ (exec i s) (exec i s') := by
  have hreads {b : BufName} (hi : Claims.readsBuf i = [b]) : Readable ρ b := hread b (hi ▸ List.mem_singleton_self b)
  cases i with
  | nop => exact h.finish (.ok h)
  | srst => exact h.finish (.ok (h.clearAll hρ))
  | clrerr => exact h.finish (.ok (h.map fun w => { w with errsticky := 0 }))
  | crcInit => exact h.finish (.ok (h.map fun w => { w with crcAcc := 0xFFFF }))
  | crcUpd b => exact h.finish (.ok (h.map fun w => { w with crcAcc := crcStep w.crcAcc b }))
  | crcUpds => exact h.execCrcUpds (hreads rfl)
  | seqReset => exact h.finish (.ok (h.map fun w => { w with sss := 0, rrr := 0 }))
  | seqTxdone => exact h.finish (.ok (h.map fun w => { w with sss := w.sss + 1 }))
  | seqRxdone => exact h.finish (.ok (h.map fun w => { w with rrr := w.rrr + 1 }))
  | hencI | hencRr | hencRnr | hencSnrm | hencDisc | hencUi | hencUa | hencDm | hencFrmr =>
    exact h.finish (h.henc hρ (hreads rfl) _)
  | hdec => exact h.execHdec hρ (hreads rfl)
  | xferT2p => exact h.execXferT2p hρ (hreads rfl)
  | xferP2t => exact h.execXferP2t hρ (hreads rfl)
  | xferF2r => exact h.execXferF2r hρ (hreads rfl)
  | tlvEncArr | tlvEncStruct | tlvEncBool | tlvEncI32 | tlvEncU32 | tlvEncI8 | tlvEncI16 | tlvEncU8 | tlvEncU16
  | tlvEncI64 | tlvEncU64 | tlvEncEnum | tlvEncF32 | tlvEncF64 | tlvWsize | tlvPutb =>
    have happend := h.append hρ hwf
    obtain ⟨u, rfl⟩ := h.exists_eq
    exact h.finish (happend _)
  | tlvEncOstr | tlvEncVstr => exact h.finish (h.encString hρ hwf (hreads rfl) _)
  | tlvEncBstr => exact h.execTlvEncBstr hρ hwf (hreads rfl)
  | tlvDecArr | tlvDecStruct => exact h.finish (h.decCount (hreads rfl) _)
  | tlvDecBool | tlvDecI32 | tlvDecU32 | tlvDecI8 | tlvDecI16 | tlvDecU8 | tlvDecU16 | tlvDecI64 | tlvDecU64
  | tlvDecEnum | tlvDecF32 | tlvDecF64 => exact h.finish (h.decFixed (hreads rfl) _ _ _)
  | tlvDecOstr | tlvDecVstr => exact h.finish (h.decString hρ (hreads rfl) _ _ (g := fun a => a.2) fun _ _ _ hw => hw)
  | tlvDecBstr =>
    exact h.finish (h.decString hρ (hreads rfl) _ _ (g := fun a => { a.2 with val := zext64 a.1 })
      fun m _ _ hw => hw.map fun w => { w with val := zext64 m })
  | tlvRsize => exact h.execTlvRsize (hreads rfl)
  | tlvGetb => exact h.execTlvGetb (hreads rfl)
  | tlvClr => exact h.finish (.ok ((h.setLen_zero hρ .tlb).map fun w => { w with tlbCur := 0 }))
  | tlvRew => exact h.finish (.ok (h.map fun w => { w with tlbCur := 0 }))

end

/-! ## The statements -/

/-- Settles O59: below the length registers the two states are alike, and all that a command reads lies there. -/
theorem noCommandReadsAnUnspecifiedByte : Obligations.NoCommandReadsAnUnspecifiedByte := by
  intro i s t b x hwf hx ht
  have h : Alike equalBelow s (s.setBuf b x) := by
    refine ⟨s.setBuf_withBuffers b x, fun b' j hj => ?_⟩
    by_cases hb : b' = b
    · subst hb
      rw [State.buf_setBuf]
      exact hx j hj
    · rw [State.buf_setBuf_ne s hb]
  obtain ⟨t₁, t', ht₁, ht', halike⟩ :=
    exec_alike bufRel_equalBelow h (fun _ => hwf) i fun b _ => readable_equalBelow b
  cases ht.symm.trans ht₁
  exact ⟨t', ht', halike.regs, fun b' k hk => halike.bufs b' k hk⟩

/-- The registers and the six buffers make the state. -/
theorem State.eq_of_buffers {s t : State} (hregs : t.withBuffers s = s) (hbufs : ∀ b, t.buf b = s.buf b) : t = s := by
  have htxf : t.txf = s.txf := hbufs .txf
  have hrxf : t.rxf = s.rxf := hbufs .rxf
  have htxp : t.txp = s.txp := hbufs .txp
  have hrxp : t.rxp = s.rxp := hbufs .rxp
  have htlb : t.tlb = s.tlb := hbufs .tlb
  have hstr : t.str = s.str := hbufs .str
  rwa [State.withBuffers, ← htxf, ← hrxf, ← htxp, ← hrxp, ← htlb, ← hstr] at hregs

/-- States that are equal but for one buffer are equal when that buffer is replaced. -/
theorem setBuf_eq_of_alike {b : BufName} {s s' : State} (h : Alike (equalBut b) s s') (y : Buf) :
    s'.setBuf b y = s.setBuf b y := by
  refine State.eq_of_buffers ?_ fun b' => ?_
  · refine Eq.trans ?_ (congrArg (fun w : State => w.setBuf b y) h.regs)
    cases b <;> rfl
  · by_cases hb : b' = b
    · subst hb
      rw [State.buf_setBuf, State.buf_setBuf]
    · rw [State.buf_setBuf_ne _ hb, State.buf_setBuf_ne _ hb, h.bufs b' hb]

theorem alike_equalBut_setBuf (s : State) (b : BufName) (x : Buf) : Alike (equalBut b) s (s.setBuf b x) :=
  ⟨s.setBuf_withBuffers b x, fun _ hb => State.buf_setBuf_ne s hb x⟩

section
variable {i : Instr} {s : State} {b : BufName}

theorem State.buf_copyBuf_ne {src dst : BufName} (h : b ≠ dst) (n : Word16) :
    (s.copyBuf src dst n).buf b = s.buf b := State.buf_store_ne s h 0 _ n

/-- An effect leaves the bytes of a buffer that its command does not write, unless it forgets them all. -/
theorem buf_of_effect {u : State} (hb : b ∉ Claims.writesBuf i) (hu : Effect s i u) :
    u.buf b = s.buf b ∨ u.len b = 0 ∧ (i = .srst ∨ i = .tlvClr ∧ b = .tlb) := by
  have hne {b' : BufName} (hi : b' ∈ Claims.writesBuf i) : b ≠ b' := fun he => hb (he ▸ hi)
  cases hu with
  | registers | cursor => exact .inl (by cases b <;> rfl)
  | srst => exact .inr ⟨by cases b <;> rfl, .inl rfl⟩
  | tlvClr =>
    by_cases htlb : b = .tlb
    · subst htlb
      exact .inr ⟨State.len_setLen s .tlb 0, .inr ⟨rfl, rfl⟩⟩
    · refine .inl (Eq.trans ?_ (State.buf_setLen_ne s htlb 0))
      cases b <;> rfl
  | append hi hfit => exact .inl (State.buf_store_ne s (hne hi) _ _ _)
  | xferT2p => exact .inl (State.buf_copyBuf_ne (hne (List.mem_singleton_self _)) _)
  | xferP2t =>
    refine .inl (Eq.trans ?_ (State.buf_copyBuf_ne (s := s) (src := .rxp) (hne (List.mem_singleton_self _)) s.rxpLen))
    cases b <;> rfl
  | xferF2r => exact .inl (State.buf_copyBuf_ne (hne (List.mem_singleton_self _)) _)
  | @henc c F hF =>
    have hi : BufName.txf ∈ Claims.writesBuf c.henc := by cases c <;> exact List.mem_singleton_self _
    exact .inl (State.buf_store_ne s (hne hi) _ _ _)
  | @string _ v k n hi =>
    refine .inl (Eq.trans ?_ (State.buf_store_ne s (hne hi) 0 (s.readBytes .tlb k n) (BitVec.ofNat 16 n)))
    cases b <;> rfl
  | @hdec r =>
    refine .inl (Eq.trans ?_
      (State.buf_store_ne s (hne (List.mem_singleton_self _)) 0 r.pay (BitVec.ofNat 16 r.pay.length)))
    cases b <;> rfl

theorem buf_stateToReportOn (hb : b ∉ Claims.writesBuf i) : (stateToReportOn i s).buf b = s.buf b := by
  unfold stateToReportOn
  split
  next h =>
    have hne : b ≠ .rxp := fun he => hb (by rw [h.1, he]; exact List.mem_singleton_self _)
    refine Eq.trans ?_ (State.buf_setLen_ne s hne 0)
    cases b <;> rfl
  next => rfl

end

/-- Settles O58: the effects store in the buffers listed for their command only, and states that are equal but for a
buffer that is not read stay so. -/
theorem commandsReachOnlyTheirBuffers : Obligations.CommandsReachOnlyTheirBuffers := by
  intro i s b
  refine ⟨fun hb t ht => ?_, fun hb x y => ?_⟩
  · obtain ⟨u, hu, rfl⟩ | ⟨e, rfl⟩ := exec_cases ht
    · refine (buf_of_effect hb hu).imp (State.buf_done u b).trans (And.imp_left fun hlen => ?_)
      exact (by cases b <;> rfl : u.done.len b = u.len b).trans hlen
    · exact .inl ((by cases b <;> rfl : State.buf (State.raise _ e) b = _).trans (buf_stateToReportOn hb))
  · obtain ⟨t, t', ht, ht', halike⟩ := exec_alike (bufRel_equalBut b) (alike_equalBut_setBuf s b x) False.elim i
      fun b' hb' => readable_equalBut fun he : b' = b => hb (he ▸ hb')
    rw [ht, ht']
    exact congrArg Host.Outcome.next (setBuf_eq_of_alike halike y)

end Sys2Proof.Machine
end

section
/-!
The CRC (41_crc.md R130 to R133). `crcStep_eq` says that the table step is eight shifts of the accumulator XORed with
the byte. One shift is linear and loses nothing, and so are eight: linearity (R133 b) and the detection of single bits
(c) follow from that.
-/

namespace Sys2Proof.Machine

-- One declaration after another: elaborated in parallel they take more memory than a check has.
set_option Elab.async false

/-! ## One shift -/

section
variable (x y : Word16)

theorem crcShift_eq_bif : crcShift x = x >>> 1 ^^^ bif x.getLsbD 0 then 0x8408#16 else 0#16 := by
  unfold crcShift
  cases x.getLsbD 0 <;> simp

theorem bif_xor (a b : Bool) (k : Word16) :
    (bif a ^^ b then k else 0#16) = (bif a then k else 0#16) ^^^ bif b then k else 0#16 := by
  cases a <;> cases b <;> simp

theorem crcShift_xor : crcShift (x ^^^ y) = crcShift x ^^^ crcShift y := by
  simp only [crcShift_eq_bif, BitVec.getLsbD_xor, bif_xor, BitVec.ushiftRight_xor_distrib]
  ac_rfl

variable {x y}

/-- The top bit of a shifted word is the bit that was shifted out, because 0x8408 has it set. -/
theorem crcShift_eq_zero (h : crcShift x = 0) : x = 0 := by
  have htop : (crcShift x).getLsbD 15 = x.getLsbD 0 := by
    rw [crcShift_eq_bif, BitVec.getLsbD_xor, BitVec.getLsbD_ushiftRight, BitVec.getLsbD_of_ge x (1 + 15) (by decide)]
    cases x.getLsbD 0 <;> rfl
  have hlow : x.getLsbD 0 = false := by rw [← htop, h]; rfl
  have hshift : x >>> 1 = 0 := by rwa [crcShift, hlow, if_neg Bool.false_ne_true] at h
  have hdiv : x.toNat / 2 = 0 := by
    have := congrArg BitVec.toNat hshift
    rwa [BitVec.toNat_ushiftRight, Nat.shiftRight_eq_div_pow] at this
  have hmod : x.toNat % 2 = 0 := by
    rw [BitVec.getLsbD, Nat.testBit_zero] at hlow
    simpa using hlow
  exact BitVec.eq_of_toNat_eq (by change _ = 0; omega)

theorem crcShift_injective : Function.Injective crcShift := by
  intro x y h
  have hzero : crcShift (x ^^^ y) = 0 := by rw [crcShift_xor, h]; exact BitVec.xor_self
  exact BitVec.xor_eq_zero_iff.mp (crcShift_eq_zero hzero)

end

/-! ## Eight shifts -/

theorem iterate_crcShift_xor (n : Nat) (x y : Word16) : crcShift^[n] (x ^^^ y) = crcShift^[n] x ^^^ crcShift^[n] y := by
  induction n generalizing x y with
  | zero => rfl
  | succ n ih => rw [Function.iterate_succ_apply, crcShift_xor, ih]; rfl

/-- The high byte alone moves to the low one. -/
theorem iterate_crcShift_high (b : Byte) : crcShift^[8] (b ++ 0#8) = b.setWidth 16 := by
  revert b; decide +kernel

theorem word_eq_high_xor_low (x : Word16) :
    x = (x.extractLsb' 8 8 ++ 0#8) ^^^ (x.setWidth 8).setWidth 16 := by
  refine BitVec.eq_of_getLsbD_eq fun i hi => ?_
  rw [BitVec.getLsbD_xor, BitVec.getLsbD_append, BitVec.getLsbD_setWidth, BitVec.getLsbD_setWidth]
  by_cases hlow : i < 8
  · simp [hlow, hi]
  · simp [hlow, show i - 8 < 8 by omega, show 8 + (i - 8) = i by omega]

theorem extractLsb'_high (x : Word16) : (x.extractLsb' 8 8).setWidth 16 = x >>> 8 := by
  refine BitVec.eq_of_toNat_eq ?_
  rw [BitVec.toNat_setWidth_of_le (by decide), BitVec.extractLsb'_toNat, BitVec.toNat_ushiftRight,
    Nat.shiftRight_eq_div_pow]
  omega

theorem setWidth_ushiftRight_eight (b : Byte) : b.setWidth 16 >>> 8 = 0 := by
  refine BitVec.eq_of_toNat_eq ?_
  rw [BitVec.toNat_ushiftRight, BitVec.toNat_setWidth_of_le (by decide), Nat.shiftRight_eq_div_pow]
  exact Nat.div_eq_of_lt b.isLt

/-- The table step (41_crc.md R132) is eight shifts (R131) of the accumulator XORed with the byte. -/
theorem crcStep_eq (a : Word16) (b : Byte) : crcStep a b = crcShift^[8] (a ^^^ b.setWidth 16) := by
  have hhigh : (a ^^^ b.setWidth 16) >>> 8 = a >>> 8 := by
    rw [BitVec.ushiftRight_xor_distrib, setWidth_ushiftRight_eight]
    exact BitVec.xor_zero
  rw [word_eq_high_xor_low (a ^^^ b.setWidth 16), iterate_crcShift_xor, iterate_crcShift_high, extractLsb'_high, hhigh]
  rfl

theorem crcStep_xor (a a' : Word16) (b b' : Byte) :
    crcStep (a ^^^ a') (b ^^^ b') = crcStep a b ^^^ crcStep a' b' := by
  simp only [crcStep_eq, ← iterate_crcShift_xor, BitVec.setWidth_xor]
  congr 1
  ac_rfl

theorem crcStep_left_injective (b : Byte) : Function.Injective (crcStep · b) := by
  intro a a' h
  simp only [crcStep_eq] at h
  exact BitVec.xor_left_inj _ |>.mp (crcShift_injective.iterate 8 h)

theorem crcStep_right_injective (a : Word16) : Function.Injective (crcStep a) := by
  intro b b' h
  simp only [crcStep_eq] at h
  have hwide : b.setWidth 16 = b'.setWidth 16 := BitVec.xor_right_inj _ |>.mp (crcShift_injective.iterate 8 h)
  have hnat := congrArg BitVec.toNat hwide
  rw [BitVec.toNat_setWidth_of_le (by decide), BitVec.toNat_setWidth_of_le (by decide)] at hnat
  exact BitVec.eq_of_toNat_eq hnat

/-! ## The single-bit steps -/

/-- A bit of data is XORed into the lowest bit before the shift (41_crc.md R133 a). -/
theorem crcBit_eq (a : Word16) (d : Bool) : Claims.crcBit a d = crcShift (a ^^^ (BitVec.ofBool d).setWidth 16) := by
  cases d with
  | false =>
    rw [show (BitVec.ofBool false).setWidth 16 = 0#16 from rfl, BitVec.xor_zero, Claims.crcBit, Bool.xor_false,
      crcShift]
  | true =>
    rw [crcShift_xor, show crcShift ((BitVec.ofBool true).setWidth 16) = 0x8408#16 from rfl, Claims.crcBit, crcShift]
    cases a.getLsbD 0 <;> simp

theorem crcBit_xor (a c : Word16) (d : Bool) : Claims.crcBit (a ^^^ c) d = crcShift a ^^^ Claims.crcBit c d := by
  rw [crcBit_eq, crcBit_eq, BitVec.xor_assoc, crcShift_xor]

/-- What the accumulator adds to the outcome of some single-bit steps does not depend on the data. -/
theorem foldl_crcBit_xor (l : List Bool) (a c : Word16) :
    l.foldl Claims.crcBit (a ^^^ c) = crcShift^[l.length] a ^^^ l.foldl Claims.crcBit c := by
  induction l generalizing a c with
  | nil => rfl
  | cons d l ih => rw [List.foldl_cons, crcBit_xor, ih]; rfl

/-- The bits of a byte, the least significant first. -/
def bitsOf (b : Byte) : List Bool := (List.range 8).map b.getLsbD

theorem foldl_crcBit_bitsOf_zero (b : Byte) : (bitsOf b).foldl Claims.crcBit 0 = crcShift^[8] (b.setWidth 16) := by
  revert b; decide +kernel

/-- Settles O14: both sides are eight shifts of the accumulator XORed with what they make of the byte alone. -/
theorem crcStepIsEightBitSteps : Obligations.CrcStepIsEightBitSteps := by
  intro a b
  calc crcStep a b = crcShift^[8] a ^^^ crcShift^[8] (b.setWidth 16) := by rw [crcStep_eq, iterate_crcShift_xor]
    _ = (bitsOf b).foldl Claims.crcBit (a ^^^ 0) := by rw [foldl_crcBit_xor, foldl_crcBit_bitsOf_zero]; rfl
    _ = _ := by rw [bitsOf, List.foldl_map]; exact congrArg (List.foldl _ · _) BitVec.xor_zero

/-! ## Messages -/

theorem crcFold_append (a : Word16) (bs cs : List Byte) : crcFold a (bs ++ cs) = crcFold (crcFold a bs) cs :=
  List.foldl_append

theorem crcFold_xor {bs cs : List Byte} (h : bs.length = cs.length) (a c : Word16) :
    crcFold (a ^^^ c) (List.zipWith (· ^^^ ·) bs cs) = crcFold a bs ^^^ crcFold c cs := by
  induction bs generalizing cs a c with
  | nil =>
    obtain rfl : cs = [] := List.length_eq_zero_iff.mp h.symm
    rfl
  | cons b bs ih =>
    cases cs with
    | nil => contradiction
    | cons b' cs =>
      have hstep := ih (Nat.succ.inj h) (crcStep a b) (crcStep c b')
      rwa [← crcStep_xor] at hstep

theorem crcFold_injective (bs : List Byte) : Function.Injective (crcFold · bs) := by
  induction bs with
  | nil => exact fun _ _ h => h
  | cons b bs ih => exact fun _ _ h => crcStep_left_injective b (ih h)

theorem zipWith_xor_replicate_zero (bs : List Byte) {n : Nat} (h : bs.length = n) :
    List.zipWith (· ^^^ ·) bs (List.replicate n 0) = bs := by
  subst h
  induction bs with
  | nil => rfl
  | cons b bs ih =>
    rw [List.length_cons, List.replicate_succ, List.zipWith_cons_cons, ih]
    exact congrArg (· :: bs) BitVec.xor_zero

/-- Settles O16: the fold is linear in accumulator and message, and the seed is the XOR of itself three times. -/
theorem crcIsLinear : Obligations.CrcIsLinear := by
  intro s t h
  have hzero : crcFold (0xFFFF ^^^ 0xFFFF) t = crcFold 0xFFFF t ^^^ crcFold 0xFFFF (List.replicate s.length 0) := by
    rw [← crcFold_xor (by simp [h]), zipWith_xor_replicate_zero t h.symm]
  have hfold : crcFold 0xFFFF (List.zipWith (· ^^^ ·) s t)
      = crcFold 0xFFFF s ^^^ (crcFold 0xFFFF t ^^^ crcFold 0xFFFF (List.replicate s.length 0)) := by
    rw [← hzero, ← crcFold_xor h]
    rfl
  rw [crc16, crc16, crc16, crc16, hfold]
  generalize crcFold _ s = x, crcFold _ t = y, crcFold _ (List.replicate _ _) = z
  calc x ^^^ (y ^^^ z) ^^^ 0xFFFF = x ^^^ (y ^^^ z) ^^^ (0xFFFF ^^^ (0xFFFF ^^^ 0xFFFF)) := rfl
    _ = _ := by ac_rfl

/-! ## A message with its CRC -/

theorem ofLe16_le16 (v : Word16) : ofLe16 (v.extractLsb' 0 8) (v.extractLsb' 8 8) = v := word_opOf_argOf v

theorem le16_injective : Function.Injective le16 := by
  intro v w h
  obtain ⟨hlo, hhi⟩ : v.extractLsb' 0 8 = w.extractLsb' 0 8 ∧ v.extractLsb' 8 8 = w.extractLsb' 8 8 := by
    simpa [le16] using h
  rw [← ofLe16_le16 v, hlo, hhi, ofLe16_le16]

theorem le16_xor (v w : Word16) : le16 (v ^^^ w) = List.zipWith (· ^^^ ·) (le16 v) (le16 w) := by
  simp [le16, BitVec.extractLsb'_xor]

/-- The bytes of the accumulator itself cancel it. -/
theorem crcFold_le16_self (a : Word16) : crcFold a (le16 a) = 0 := by
  have hlow : a ^^^ (a.extractLsb' 0 8).setWidth 16 = a.extractLsb' 8 8 ++ 0#8 := by
    have hwide : a.extractLsb' 0 8 = a.setWidth 8 := (BitVec.setWidth_eq_extractLsb' (by decide)).symm
    rw [hwide]
    nth_rw 1 [word_eq_high_xor_low a]
    rw [BitVec.xor_assoc, BitVec.xor_self, BitVec.xor_zero]
  change crcStep (crcStep a _) _ = 0
  rw [crcStep_eq a, hlow, iterate_crcShift_high, crcStep_eq, BitVec.xor_self]
  rfl

/-- Settles O15: the bytes of the CRC are those of the accumulator, which cancel it, XORed with those of the final
complement, which leave a constant. -/
theorem crcOfMessageAndItsCrcIsTheResidue : Obligations.CrcOfMessageAndItsCrcIsTheResidue := by
  intro bs
  rw [crcFold_append, crc16]
  generalize crcFold 0xFFFF bs = a
  calc crcFold a (le16 (a ^^^ 0xFFFF)) = crcFold (a ^^^ 0) (List.zipWith (· ^^^ ·) (le16 a) (le16 0xFFFF)) := by
        rw [le16_xor]; exact congrArg (crcFold · _) BitVec.xor_zero.symm
    _ = crcFold a (le16 a) ^^^ crcFold 0 (le16 0xFFFF) := crcFold_xor (bs := le16 a) (cs := le16 0xFFFF) rfl a 0
    _ = 0 ^^^ 0xF0B8 := by rw [crcFold_le16_self]; rfl
    _ = 0xF0B8 := rfl

/-! ## One inverted bit -/

section
variable {F G : List Byte} {i k : Nat}

theorem byteOf_eq_getElem (h : i < F.length) : byteOf F i = F[i] := List.getD_eq_getElem F 0 h

theorem xor_bit_ne (b : Byte) (h : k < 8) : b ^^^ 1#8 <<< k ≠ b := by
  intro he
  have hzero : 1#8 <<< k = 0 := BitVec.xor_right_inj b |>.mp (he.trans BitVec.xor_zero.symm)
  interval_cases k <;> contradiction

/-- A byte of a message can be told from its CRC, the others given. -/
theorem byteOf_of_crcFold_set {a : Word16} {b : Byte} (h : i < F.length) (he : crcFold a (F.set i b) = crcFold a F) :
    b = byteOf F i := by
  rw [List.set_eq_take_append_cons_drop, if_pos h, crcFold_append] at he
  conv at he => rhs; rw [← List.take_append_drop i F, List.drop_eq_getElem_cons h, crcFold_append]
  rw [byteOf_eq_getElem h]
  exact crcStep_right_injective _ (crcFold_injective _ he)

theorem crc16_flipBit_ne (hk : k < 8) (hi : i < F.length) : crc16 (Claims.flipBit F i k) ≠ crc16 F := fun h =>
  xor_bit_ne _ hk (byteOf_of_crcFold_set hi (BitVec.xor_left_inj _ |>.mp h))

@[simp] theorem length_flipBit (F : List Byte) (i k : Nat) : (Claims.flipBit F i k).length = F.length :=
  List.length_set

theorem flipBit_ne (hk : k < 8) (hi : i < F.length) : Claims.flipBit F i k ≠ F := fun h =>
  crc16_flipBit_ne hk hi (congrArg crc16 h)

theorem flipBit_append_left (h : i < F.length) : Claims.flipBit (F ++ G) i k = Claims.flipBit F i k ++ G := by
  rw [Claims.flipBit, List.set_append_left _ _ h, Claims.flipBit, byteOf, List.getD_append _ _ _ _ h, byteOf]

theorem flipBit_append_right (h : F.length ≤ i) :
    Claims.flipBit (F ++ G) i k = F ++ Claims.flipBit G (i - F.length) k := by
  rw [Claims.flipBit, List.set_append_right _ _ h, Claims.flipBit, byteOf, List.getD_append_right _ _ _ _ h, byteOf]

end

/-- Settles O17: a changed byte changes the CRC of the message, and a changed CRC is no longer the message's. -/
theorem crcDetectsEverySingleBit : Obligations.CrcDetectsEverySingleBit := by
  intro bs i k hk
  refine ⟨crc16_flipBit_ne hk, fun hi => ?_⟩
  dsimp only
  by_cases hin : i < bs.length
  · rw [flipBit_append_left hin, List.drop_left' (length_flipBit bs i k), List.take_left' (length_flipBit bs i k)]
    exact fun h => crc16_flipBit_ne hk hin (le16_injective h).symm
  · rw [flipBit_append_right (Nat.not_lt.mp hin), List.drop_left, List.take_left]
    exact flipBit_ne hk (by rw [length_le16]; omega)

end Sys2Proof.Machine
end

section
/-!
The parts of a frame (30_encoding.md R84 to R98): bytes and slices of a concatenation, the address bytes, the layout of
what HENC builds, and the statements about addresses, the frame, its lengths and its FCS.
-/

namespace Sys2Proof.Machine

-- One declaration after another: elaborated in parallel they take more memory than a check has.
set_option Elab.async false

/-! ## Bytes and slices of a concatenation -/

section
variable {A B : List Byte} {i a b : Nat}

theorem byteOf_append_left (h : i < A.length) : byteOf (A ++ B) i = byteOf A i := List.getD_append _ _ _ _ h

theorem byteOf_append_right (h : A.length ≤ i) : byteOf (A ++ B) i = byteOf B (i - A.length) :=
  List.getD_append_right _ _ _ _ h

theorem slice_append_left (h : b ≤ A.length) : slice (A ++ B) a b = slice A a b := by
  rw [slice, slice, List.drop_append, List.take_append_of_le_length (by rw [List.length_drop]; omega)]

theorem slice_append_right (h : A.length ≤ a) : slice (A ++ B) a b = slice B (a - A.length) (b - A.length) := by
  rw [slice, slice, List.drop_append, List.drop_eq_nil_of_le h, List.nil_append]
  congr 1
  omega

theorem slice_zero_length (A : List Byte) : slice A 0 A.length = A := by
  rw [slice, List.drop_zero, Nat.sub_zero, List.take_length]

theorem slice_append_self (A B : List Byte) : slice (A ++ B) 0 A.length = A := by
  rw [slice_append_left (Nat.le_refl _), slice_zero_length]

/-- What stands between two parts. -/
theorem slice_middle {C : List Byte} (ha : a = A.length) (hb : b = a + B.length) : slice (A ++ (B ++ C)) a b = B := by
  subst ha hb
  rw [slice_append_right (Nat.le_refl _), Nat.sub_self, Nat.add_sub_cancel_left, slice_append_self]

theorem byteOf_middle {x : Byte} (h : i = A.length) : byteOf (A ++ x :: B) i = x := by
  subst h
  rw [byteOf_append_right (Nat.le_refl _), Nat.sub_self]
  rfl

end

/-! ## Address bytes -/

theorem addrByte_toNat (a : BitVec 7) (last : Bool) : (addrByte a last).toNat = 2 * a.toNat + last.toNat := by
  rw [addrByte, BitVec.toNat_append, ← Nat.shiftLeft_add_eq_or_of_lt (BitVec.isLt _), Nat.shiftLeft_eq,
    BitVec.toNat_ofBool]
  omega

theorem addrByte_end (a : BitVec 7) (last : Bool) : (addrByte a last).getLsbD 0 = last := by
  rw [BitVec.getLsbD, addrByte_toNat, Nat.testBit_zero]
  cases last <;> simp

theorem addrBits_addrByte (a : BitVec 7) (last : Bool) : addrBits (addrByte a last) = a :=
  BitVec.extractLsb'_append_eq_left

theorem toNat_extractLsb'_low (v : Word16) : (v.extractLsb' 0 7).toNat = v.toNat % 128 := BitVec.extractLsb'_toNat ..

theorem toNat_extractLsb'_high (v : Word16) : (v.extractLsb' 7 7).toNat = v.toNat / 128 % 128 := by
  rw [BitVec.extractLsb'_toNat, Nat.shiftRight_eq_div_pow]

/-- An address of seven bits is its low seven bits. -/
theorem setWidth_extractLsb'_low {v : Word16} (h : v.toNat ≤ 0x7F) : (v.extractLsb' 0 7).setWidth 16 = v := by
  apply BitVec.eq_of_toNat_eq
  rw [BitVec.toNat_setWidth_of_le (by decide), toNat_extractLsb'_low]
  omega

/-- An address of fourteen bits is its two groups of seven. -/
theorem setWidth_extractLsb'_append {v : Word16} (h : v.toNat ≤ 0x3FFF) :
    (v.extractLsb' 7 7 ++ v.extractLsb' 0 7 : BitVec 14).setWidth 16 = v := by
  apply BitVec.eq_of_toNat_eq
  rw [BitVec.toNat_setWidth_of_le (by decide), BitVec.toNat_append, ← Nat.shiftLeft_add_eq_or_of_lt (BitVec.isLt _),
    Nat.shiftLeft_eq, toNat_extractLsb'_low, toNat_extractLsb'_high]
  omega

theorem clientByte_toNat {c : Byte} (h : c.toNat ≤ 0x7F) : (clientByte c).toNat = 2 * c.toNat + 1 := by
  have hlow : (c.extractLsb' 0 7).toNat = c.toNat := by
    rw [BitVec.extractLsb'_toNat, Nat.shiftRight_zero]
    omega
  rw [clientByte, addrByte_toNat, hlow]
  rfl

section
variable {na : Nat} {L P : Word16}

/-- The decoder reads the addresses back (30_encoding.md R91). -/
theorem serverOf_serverBytes (hna : na = 1 ∨ na = 2 ∨ na = 4) (hL : L.toNat ≤ maxLog na) (hP : P.toNat ≤ maxPhy na) :
    serverOf (serverBytes L P na) = (L, P) := by
  obtain rfl | rfl | rfl := hna
  · have hP0 : P = 0 := BitVec.eq_of_toNat_eq (Nat.le_zero.mp hP)
    change ((addrBits (addrByte _ _)).setWidth 16, 0#16) = _
    rw [addrBits_addrByte, setWidth_extractLsb'_low hL, hP0]
    rfl
  · change ((addrBits (addrByte _ _)).setWidth 16, (addrBits (addrByte _ _)).setWidth 16) = _
    rw [addrBits_addrByte, addrBits_addrByte, setWidth_extractLsb'_low hL, setWidth_extractLsb'_low hP]
  · change ((addrBits (addrByte _ _) ++ addrBits (addrByte _ _) : BitVec 14).setWidth 16,
      (addrBits (addrByte _ _) ++ addrBits (addrByte _ _) : BitVec 14).setWidth 16) = _
    simp only [addrBits_addrByte, setWidth_extractLsb'_append hL, setWidth_extractLsb'_append hP]

/-- The extension bit is set on the last byte only (30_encoding.md R89). -/
theorem serverBytes_end (hna : na = 1 ∨ na = 2 ∨ na = 4) {k : Nat} (hk : k < na) :
    (byteOf (serverBytes L P na) k).getLsbD 0 = decide (k + 1 = na) := by
  obtain rfl | rfl | rfl := hna <;> interval_cases k <;> exact addrByte_end _ _

theorem serverBytes_map_half (hna : na = 1 ∨ na = 2 ∨ na = 4) (hL : L.toNat ≤ maxLog na) (hP : P.toNat ≤ maxPhy na) :
    (serverBytes L P na).map (fun b => b.toNat / 2)
      = if na = 1 then [L.toNat] else if na = 2 then [L.toNat, P.toNat]
        else [L.toNat / 128, L.toNat % 128, P.toNat / 128, P.toNat % 128] := by
  have hhalf (a : BitVec 7) (last : Bool) : (addrByte a last).toNat / 2 = a.toNat := by
    have := last.toNat_lt
    rw [addrByte_toNat]
    omega
  have hlow {v : Word16} (hv : v.toNat ≤ 0x7F) : (v.extractLsb' 0 7).toNat = v.toNat := by
    rw [toNat_extractLsb'_low]
    omega
  have hhigh {v : Word16} (hv : v.toNat ≤ 0x3FFF) : (v.extractLsb' 7 7).toNat = v.toNat / 128 := by
    rw [toNat_extractLsb'_high]
    omega
  obtain rfl | rfl | rfl := hna
  · simp [serverBytes, hhalf, hlow hL]
  · simp [serverBytes, hhalf, hlow hL, hlow hP]
  · simp [serverBytes, hhalf, hhigh hL, hhigh hP]

end

/-- Settles O25: the tables row by row, an address byte as twice its bits plus the extension bit, and the three
forms. -/
theorem serverAddressForms : Obligations.ServerAddressForms := by
  refine ⟨rfl, rfl, rfl, fun c => clientByte_toNat, fun na L P hna hL hP => ?_⟩
  exact ⟨length_serverBytes L P hna, serverOf_serverBytes hna hL hP, fun k => serverBytes_end hna,
    serverBytes_map_half hna hL hP⟩

/-! ## The layout of a frame -/

section
variable {LEN na : Nat} {srv info : List Byte} {client ctrl : Byte}

theorem length_frameHeader (h : srv.length = na) : (frameHeader LEN (srv ++ [client]) ctrl).length = 4 + na := by
  simp [frameHeader, h]
  omega

/-- The format byte holds the frame type and the top four bits of LEN (30_encoding.md R86). -/
theorem formatByte_toNat (h : LEN ≤ 0xFFF) : (0xA0#8 ||| BitVec.ofNat 8 (LEN >>> 8 % 16)).toNat = 0xA0 + LEN / 256 := by
  have hdiv : LEN / 256 < 2 ^ 4 := by omega
  have hor := Nat.two_pow_add_eq_or_of_lt hdiv 10
  rw [BitVec.toNat_or, BitVec.toNat_ofNat, BitVec.toNat_ofNat, Nat.shiftRight_eq_div_pow]
  rw [show LEN / 2 ^ 8 % 16 % 2 ^ 8 = LEN / 256 by omega]
  exact hor.symm

/-- The frame is the body between its flags, with the FCS after it. -/
theorem frameOf_eq (hdr info : List Byte) : frameOf hdr info
    = [0x7E] ++ (frameBody hdr info ++ (le16 (crc16 (frameBody hdr info)) ++ [0x7E])) := by
  simp [frameOf]

theorem frameBody_eq_append (hdr info : List Byte) : ∃ rest, frameBody hdr info = hdr ++ rest
    ∧ rest.length = if info = [] then 0 else 2 + info.length := by
  by_cases h : info = []
  · exact ⟨[], by simp [frameBody, h], by simp [h]⟩
  · exact ⟨le16 (crc16 hdr) ++ info, by simp [frameBody, h], by simp [h]⟩

variable {hdr : List Byte}

theorem length_frameBody (h : hdr.length = 4 + na) : (frameBody hdr info).length + 2 = frameLen na info.length := by
  obtain ⟨rest, hbody, hrest⟩ := frameBody_eq_append hdr info
  rw [hbody, List.length_append, hrest, h, frameLen]
  simp only [List.length_eq_zero_iff]
  split <;> omega

theorem slice_frameOf_body (h : hdr.length = 4 + na) :
    slice (frameOf hdr info) 1 (frameLen na info.length - 1) = frameBody hdr info := by
  have hlen := length_frameBody (info := info) h
  rw [frameOf_eq]
  exact slice_middle rfl (by omega)

/-- The header stands after the flag. -/
theorem slice_frameOf_header (hdr info : List Byte) : slice (frameOf hdr info) 1 (1 + hdr.length) = hdr := by
  obtain ⟨rest, hbody, -⟩ := frameBody_eq_append hdr info
  rw [frameOf_eq, hbody, List.append_assoc]
  exact slice_middle rfl rfl

/-- The two bytes of the FCS and the closing flag, by their place from the end. -/
theorem frameOf_tail (h : hdr.length = 4 + na) :
    ofLe16 (byteOf (frameOf hdr info) (frameLen na info.length - 1))
          (byteOf (frameOf hdr info) (frameLen na info.length))
        = crc16 (frameBody hdr info)
      ∧ byteOf (frameOf hdr info) (frameLen na info.length + 1) = 0x7E := by
  have hlen := length_frameBody (info := info) h
  have hsplit : frameOf hdr info
      = ([0x7E] ++ frameBody hdr info) ++ (le16 (crc16 (frameBody hdr info)) ++ [0x7E]) := by
    rw [frameOf_eq, List.append_assoc]
  have hpre : ([0x7E] ++ frameBody hdr info : List Byte).length = frameLen na info.length - 1 := by
    rw [List.length_append, List.length_singleton]
    omega
  have hbyte (j : Nat) : byteOf (frameOf hdr info) (frameLen na info.length - 1 + j)
      = byteOf (le16 (crc16 (frameBody hdr info)) ++ [0x7E]) j := by
    rw [hsplit, byteOf_append_right (by omega), hpre, Nat.add_sub_cancel_left]
  have h1 := hbyte 1
  have h2 := hbyte 2
  rw [show frameLen na info.length - 1 + 1 = frameLen na info.length by omega] at h1
  rw [show frameLen na info.length - 1 + 2 = frameLen na info.length + 1 by omega] at h2
  exact ⟨by rw [show byteOf _ (frameLen na info.length - 1) = _ from hbyte 0, h1]; exact ofLe16_le16 _, h2⟩

/-- With an information field, the HCS and then that field stand after the header. -/
theorem frameOf_info (h : hdr.length = 4 + na) (hinfo : info ≠ []) :
    ofLe16 (byteOf (frameOf hdr info) (5 + na)) (byteOf (frameOf hdr info) (6 + na)) = crc16 hdr
      ∧ slice (frameOf hdr info) (7 + na) (frameLen na info.length - 1) = info := by
  have hsplit : frameOf hdr info = ([0x7E] ++ hdr) ++ (le16 (crc16 hdr) ++ (info
      ++ (le16 (crc16 (frameBody hdr info)) ++ [0x7E]))) := by
    rw [frameOf_eq]
    simp [frameBody, hinfo]
  have hpre : ([0x7E] ++ hdr : List Byte).length = 5 + na := by
    rw [List.length_append, List.length_singleton]
    omega
  have hne : info.length ≠ 0 := by simpa using hinfo
  constructor
  · have hbyte (j : Nat) : byteOf (frameOf hdr info) (5 + na + j)
        = byteOf (le16 (crc16 hdr) ++ (info ++ (le16 (crc16 (frameBody hdr info)) ++ [0x7E]))) j := by
      rw [hsplit, byteOf_append_right (by omega), hpre, Nat.add_sub_cancel_left]
    have h1 := hbyte 1
    rw [show 5 + na + 1 = 6 + na by omega] at h1
    rw [show byteOf _ (5 + na) = _ from hbyte 0, h1]
    exact ofLe16_le16 _
  · rw [hsplit, ← List.append_assoc]
    refine slice_middle ?_ ?_
    · rw [List.length_append, hpre, length_le16]
      omega
    · rw [frameLen, if_neg hne]
      omega

/-- The fields of the header, by their place. -/
theorem frameOf_fields (h : srv.length = na) :
    let F := frameOf (frameHeader LEN (srv ++ [client]) ctrl) info
    byteOf F 1 = 0xA0 ||| BitVec.ofNat 8 (LEN >>> 8 % 16) ∧ byteOf F 2 = BitVec.ofNat 8 LEN
      ∧ (∀ j, j < na → byteOf F (3 + j) = byteOf srv j) ∧ slice F 3 (3 + na) = srv
      ∧ byteOf F (3 + na) = client ∧ byteOf F (4 + na) = ctrl := by
  intro F
  obtain ⟨rest, hbody, -⟩ := frameBody_eq_append (frameHeader LEN (srv ++ [client]) ctrl) info
  have hF : F = [0x7E#8, 0xA0#8 ||| BitVec.ofNat 8 (LEN >>> 8 % 16), BitVec.ofNat 8 LEN]
      ++ (srv ++ (client :: ctrl :: (rest ++ (le16 (crc16 (frameHeader LEN (srv ++ [client]) ctrl ++ rest))
        ++ [0x7E#8])))) := by
    change frameOf _ _ = _
    rw [frameOf_eq, hbody]
    simp [frameHeader]
  clear_value F
  subst hF
  refine ⟨rfl, rfl, fun j hj => ?_, slice_middle rfl (by rw [h]), ?_, ?_⟩
  · rw [byteOf_append_right (by simp), byteOf_append_left (by simpa [h] using hj)]
    congr 1
    simp
  · rw [← List.append_assoc]
    exact byteOf_middle (by simp [h]; omega)
  · rw [← List.append_assoc, List.append_cons _ client]
    exact byteOf_middle (by simp [h]; omega)

end

/-! ## What HENC builds -/

section
variable {s t : State} {c : FrameCmd} {na : Nat}

theorem State.hencFrame_eq_ok (hchecks : s.hencChecks = .ok na) (hfit : frameLen na (s.txInfo c).length ≤ 0xFFF) :
    s.hencFrame c = .ok (s.txFrame c na) := by
  rw [State.hencFrame, hchecks, ok_bind, raiseIf_bind, if_neg (by omega)]
  rfl

/-- HENC succeeds on operands in range whose frame is not too long. -/
theorem exec_henc_of_fit (hchecks : s.hencChecks = .ok na) (hfit : frameLen na (s.txInfo c).length ≤ 0xFFF) :
    exec c.henc s = .next (s.storeFrame (s.txFrame c na)).done := by
  rw [exec_henc, State.henc_eq_storeFrame, State.hencFrame_eq_ok hchecks hfit]
  rfl

theorem exec_henc_of_frame_too_long (hchecks : s.hencChecks = .ok na) (h : 0xFFF < frameLen na (s.txInfo c).length) :
    exec c.henc s = .next (s.raise ⟨.capacityExceeded, 3, 0⟩) := by
  rw [exec_henc, State.henc_of_frame_too_long hchecks h]
  rfl

/-- A HENC that ends with STATUS 0 has stored a frame that fits. -/
theorem exec_henc_eq_done (h : exec c.henc s = .next t) (h0 : t.status = 0) :
    ∃ na, s.hencChecks = .ok na ∧ frameLen na (s.txInfo c).length ≤ 0xFFF
      ∧ t = (s.storeFrame (s.txFrame c na)).done := by
  obtain ⟨F, hF, rfl⟩ | ⟨e, -, rfl⟩ := exec_henc_cases h
  · obtain ⟨na, hchecks, hF⟩ := bind_eq_ok.mp hF
    obtain ⟨_, hfit, hF⟩ := bind_eq_ok.mp hF
    cases hF
    exact ⟨na, hchecks, Nat.not_lt.mp (raiseIf_eq_ok.mp hfit), rfl⟩
  · exact absurd h0 e.statusWord_ne_zero

/-- TXF_LEN holds the length of the stored frame. -/
theorem State.toNat_storeFrame_txfLen (hchecks : s.hencChecks = .ok na)
    (hfit : frameLen na (s.txInfo c).length ≤ 0xFFF) :
    (s.storeFrame (s.txFrame c na)).txfLen.toNat = frameLen na (s.txInfo c).length + 2 := by
  rw [State.storeFrame_txfLen, State.length_txFrame hchecks]
  exact Nat.mod_eq_of_lt (by omega)

theorem State.storesOnly_storeFrame {F : List Byte} (h : F.length < 65536) : storesOnly .txf 0 F s (s.storeFrame F) :=
  storesOnly_setLen_writeBytes (by rw [Nat.zero_add, BitVec.toNat_ofNat, Nat.mod_eq_of_lt h])

end

/-- The header of the frame that `henc(c)` builds. -/
def State.txHeader (s : State) (c : FrameCmd) (na : Nat) : List Byte :=
  frameHeader (frameLen na (s.txInfo c).length) (serverBytes s.srvLog s.srvPhy na ++ [clientByte s.clientAddr])
    (controlByte s.params.tags c s.sss s.rrr)

theorem State.length_txHeader {s : State} {c : FrameCmd} {na : Nat} (hchecks : s.hencChecks = .ok na) :
    (s.txHeader c na).length = 4 + na := by
  obtain ⟨-, halen, -⟩ := State.hencChecks_eq_ok.mp hchecks
  exact length_frameHeader (length_serverBytes _ _ (alenBytes_cases halen))

/-- Settles O21: HENC stores `txFrame`, and each clause is a part of the layout of a frame. -/
theorem hencBuildsTheFrame : Obligations.HencBuildsTheFrame := by
  intro c s na halen hpay hclient hlog hphy info ni LEN hfit
  have hchecks : s.hencChecks = .ok na := State.hencChecks_eq_ok.mpr ⟨hpay, halen, hclient, hlog, hphy⟩
  have hLEN : frameLen na (s.txInfo c).length = LEN := rfl
  have hsrv := length_serverBytes s.srvLog s.srvPhy (alenBytes_cases halen)
  have hlen : (s.txFrame c na).length = LEN + 2 := State.length_txFrame hchecks
  have hhdr := State.length_txHeader (c := c) hchecks
  obtain ⟨hfmt, hlo, -, haddr, hcl, hctrl⟩ := frameOf_fields (LEN := LEN) (client := clientByte s.clientAddr)
    (ctrl := controlByte s.params.tags c s.sss s.rrr) (info := s.txInfo c) hsrv
  obtain ⟨hfcs, hflag⟩ := frameOf_tail (info := s.txInfo c) hhdr
  have hbody := slice_frameOf_body (info := s.txInfo c) hhdr
  have hstart := slice_frameOf_header (s.txHeader c na) (s.txInfo c)
  rw [hLEN] at hbody hfcs hflag
  rw [hhdr, ← Nat.add_assoc] at hstart
  refine ⟨_, s.txFrame c na, exec_henc_of_fit hchecks hfit, ⟨rfl, rfl⟩, State.toNat_storeFrame_txfLen hchecks hfit,
    hlen, storesOnly_congr rfl rfl (State.storesOnly_storeFrame (by omega)), ?_, rfl, ?_, ?_, haddr, hcl, hctrl,
    fun hni => ?_, hfcs.trans (congrArg crc16 hbody.symm), hflag⟩
  · rw [State.storeFrame_eq_with]
    rfl
  · exact (congrArg BitVec.toNat hfmt).trans (formatByte_toNat hfit)
  · exact (congrArg BitVec.toNat hlo).trans (BitVec.toNat_ofNat _ _)
  · obtain ⟨hhcs, hfield⟩ := frameOf_info hhdr (List.ne_nil_of_length_pos (Nat.pos_of_ne_zero hni) : s.txInfo c ≠ [])
    have hend : LEN - 1 = 7 + na + ni := by
      simp only [LEN, if_neg hni]
      omega
    rw [hLEN, hend] at hfield
    exact ⟨hhcs.trans (congrArg crc16 hstart.symm), hfield⟩

/-- Settles O26: the length of the frame by the two forms of `frameLen`, compared with 4095. -/
theorem largestPayloads : Obligations.LargestPayloads := by
  intro c s na halen hpay hclient hlog hphy
  have hchecks : s.hencChecks = .ok na := State.hencChecks_eq_ok.mpr ⟨hpay, halen, hclient, hlog, hphy⟩
  have hna := alenBytes_cases halen
  have hzero : s.txpLen = 0 ↔ s.txpLen.toNat = 0 := BitVec.toNat_inj.symm
  have hLEN : frameLen na (s.txInfo c).length + 2 = if c = .I then 13 + na + s.txpLen.toNat
      else if s.txpLen = 0 then 8 + na else 10 + na + s.txpLen.toNat := by
    rw [State.length_txInfo, frameLen, ite_cond_congr (propext hzero)]
    by_cases hI : c = .I
    · rw [if_pos hI, if_pos hI, if_neg (by omega)]
      omega
    · simp only [if_neg hI, Nat.zero_add]
      split <;> omega
  have hbound : frameLen na (s.txInfo c).length ≤ 0xFFF
      ↔ s.txpLen.toNat ≤ (if c = .I then 4084 - na else 4087 - na) := by
    by_cases hI : c = .I
    · rw [if_pos hI] at hLEN ⊢
      omega
    · rw [if_neg hI] at hLEN ⊢
      split at hLEN
      next h0 =>
        have := hzero.mp h0
        omega
      next => omega
  by_cases hfit : frameLen na (s.txInfo c).length ≤ 0xFFF
  · refine ⟨_, exec_henc_of_fit hchecks hfit, ?_, fun _ => (State.toNat_storeFrame_txfLen hchecks hfit).trans hLEN⟩
    exact iff_of_true rfl (hbound.mp hfit)
  · refine ⟨_, exec_henc_of_frame_too_long hchecks (Nat.not_le.mp hfit), ?_,
      fun h0 => absurd h0 (CmdError.statusWord_ne_zero _)⟩
    exact iff_of_false (CmdError.statusWord_ne_zero _) fun h => hfit (hbound.mpr h)

/-- The CRC of a header with its HCS is the residue, whatever the header is. -/
theorem crc16_frameBody {hdr info : List Byte} (h : info ≠ []) :
    crc16 (frameBody hdr info) = crcFold 0xF0B8 info ^^^ 0xFFFF := by
  rw [frameBody, if_neg h, crc16, crcFold_append, crcOfMessageAndItsCrcIsTheResidue]

/-- The FCS of a stored frame with an information field. -/
theorem fcs_of_exec_henc {c : FrameCmd} {s t : State} (ht : exec c.henc s = .next t) (h0 : t.status = 0)
    (hne : s.txInfo c ≠ []) :
    ofLe16 (t.byteAt .txf (t.txfLen.toNat - 3)) (t.byteAt .txf (t.txfLen.toNat - 2))
      = crcFold 0xF0B8 (s.txInfo c) ^^^ 0xFFFF := by
  obtain ⟨na, hchecks, hfit, rfl⟩ := exec_henc_eq_done ht h0
  have hlen := State.toNat_storeFrame_txfLen (c := c) hchecks hfit
  have hbyte (k : Nat) (hk : k < frameLen na (s.txInfo c).length + 2) :
      (s.storeFrame (s.txFrame c na)).done.byteAt .txf k = byteOf (s.txFrame c na) k :=
    State.byteAt_storeFrame (hlen ▸ hk)
  rw [State.done_txfLen, hlen, hbyte _ (by omega), hbyte _ (by omega), ← crc16_frameBody hne]
  exact (frameOf_tail (info := s.txInfo c) (State.length_txHeader hchecks)).1

/-- Settles O27: the FCS of a stored frame is the CRC of its body, which the information field alone decides. -/
theorem fcsDependsOnInformationOnly : Obligations.FcsDependsOnInformationOnly := by
  intro c c' s s' t t' ht ht' h0 h0' hne hinfo
  have hword : ofLe16 (t.byteAt .txf (t.txfLen.toNat - 3)) (t.byteAt .txf (t.txfLen.toNat - 2))
      = ofLe16 (t'.byteAt .txf (t'.txfLen.toNat - 3)) (t'.byteAt .txf (t'.txfLen.toNat - 2)) := by
    rw [fcs_of_exec_henc ht h0 hne, fcs_of_exec_henc ht' h0' (hinfo ▸ hne), hinfo]
  exact word_injective hword

end Sys2Proof.Machine
end

section
/-!
What HDEC makes of a frame that HENC built (44_hdlc_decode.md R185), of a frame with one bit inverted (R186), that TXF
never holds anything else (10_state.md R50), and the statements about them.
-/

namespace Sys2Proof.Machine

-- One declaration after another: elaborated in parallel they take more memory than a check has.
set_option Elab.async false

/-! ## The steps of HDEC on a frame of the layout of HENC -/

section
variable {F d : List Byte}

/-- The walk over the server address stops after the byte with the extension bit. -/
theorem hdecWalk_of_bytes {limit room p : Nat} (hd : d ≠ []) (hroom : d.length ≤ room) (hlimit : p + d.length ≤ limit)
    (hF : ∀ j, j < d.length → byteOf F (p + j) = byteOf d j)
    (hend : ∀ j, j < d.length → (byteOf d j).getLsbD 0 = decide (j + 1 = d.length)) :
    hdecWalk F limit room p = .ok (d, p + d.length) := by
  induction d generalizing room p with
  | nil => contradiction
  | cons b d ih =>
    rw [List.length_cons] at hroom hlimit hF hend ⊢
    obtain ⟨room, rfl⟩ : ∃ r, room = r + 1 := Nat.exists_eq_add_of_le' (by omega)
    have hb : byteOf F p = b := hF 0 (Nat.succ_pos _)
    have hbit : b.getLsbD 0 = decide (0 + 1 = d.length + 1) := hend 0 (Nat.succ_pos _)
    rw [hdecWalk, if_neg (by omega), hb, hbit]
    by_cases hnil : d = []
    · subst hnil
      rfl
    · have hlen : ¬ 0 + 1 = d.length + 1 := by simpa using Ne.symm hnil
      rw [decide_eq_false hlen, if_neg Bool.false_ne_true]
      have htail := ih (room := room) (p := p + 1) hnil (by omega) (by omega)
        (fun j hj => by rw [Nat.add_assoc, Nat.add_comm 1 j]; exact hF (j + 1) (by omega))
        (fun j hj => (hend (j + 1) (by omega)).trans (decide_eq_decide.mpr Nat.add_right_cancel_iff))
      rw [htail, Nat.add_assoc, Nat.add_comm 1 d.length]

/-- Steps 1 to 6. -/
theorem hdecEnvelope_eq_ok : hdecEnvelope F = .ok () ↔
    9 ≤ F.length ∧ byteOf F 0 = 0x7E ∧ byteOf F (F.length - 1) = 0x7E ∧ (byteOf F 1).extractLsb' 4 4 = 0xA
      ∧ ((byteOf F 1).extractLsb' 0 4 ++ byteOf F 2 : BitVec 12).toNat = F.length - 2
      ∧ crc16 (slice F 1 (F.length - 3)) = ofLe16 (byteOf F (F.length - 3)) (byteOf F (F.length - 2)) := by
  simp only [hdecEnvelope, bind_eq_ok, raiseIf_eq_ok, exists_const, not_lt, not_not, ne_eq]

theorem toNat_lengthField (b b' : Byte) :
    (b.extractLsb' 0 4 ++ b' : BitVec 12).toNat = b.toNat % 16 * 256 + b'.toNat := by
  rw [BitVec.toNat_append, ← Nat.shiftLeft_add_eq_or_of_lt (BitVec.isLt _), Nat.shiftLeft_eq, BitVec.extractLsb'_toNat,
    Nat.shiftRight_zero]

theorem toNat_formatNibble (b : Byte) : (b.extractLsb' 4 4).toNat = b.toNat / 16 := by
  rw [BitVec.extractLsb'_toNat, Nat.shiftRight_eq_div_pow]
  omega

end

/-- A client address of seven bits is read back (30_encoding.md R90). -/
theorem addrBits_clientByte {client : Byte} (h : client.toNat ≤ 0x7F) :
    (addrBits (clientByte client)).setWidth 8 = client := by
  apply BitVec.eq_of_toNat_eq
  rw [clientByte, addrBits_addrByte, BitVec.toNat_setWidth_of_le (by decide), BitVec.extractLsb'_toNat,
    Nat.shiftRight_zero]
  omega

section
variable {na : Nat} {L P : Word16} {client ctrl : Byte} {info : List Byte}

/-- A frame laid out as HENC does it. -/
def builtFrame (na : Nat) (L P : Word16) (client ctrl : Byte) (info : List Byte) : List Byte :=
  frameOf (frameHeader (frameLen na info.length) (serverBytes L P na ++ [clientByte client]) ctrl) info

theorem length_builtFrame (hna : na = 1 ∨ na = 2 ∨ na = 4) :
    (builtFrame na L P client ctrl info).length = frameLen na info.length + 2 :=
  length_frameOf _ na _ _ _ (by rw [List.length_append, length_serverBytes L P hna, List.length_singleton])

theorem frameLen_ge (na ni : Nat) : 6 + na ≤ frameLen na ni := by
  unfold frameLen
  split <;> omega

theorem hdecEnvelope_builtFrame (hna : na = 1 ∨ na = 2 ∨ na = 4) (hfit : frameLen na info.length ≤ 0xFFF) :
    hdecEnvelope (builtFrame na L P client ctrl info) = .ok () := by
  have hsrv := length_serverBytes L P hna
  have hlen := length_builtFrame (L := L) (P := P) (client := client) (ctrl := ctrl) (info := info) hna
  have hge := frameLen_ge na info.length
  have hhdr := length_frameHeader (LEN := frameLen na info.length) (client := clientByte client) (ctrl := ctrl) hsrv
  obtain ⟨hfmt, hlo, -⟩ := frameOf_fields (LEN := frameLen na info.length) (client := clientByte client) (ctrl := ctrl)
    (info := info) hsrv
  obtain ⟨hfcs, hflag⟩ := frameOf_tail (info := info) hhdr
  have hbody := slice_frameOf_body (info := info) hhdr
  have hfmtNat := (congrArg BitVec.toNat hfmt).trans (formatByte_toNat hfit)
  have hloNat := (congrArg BitVec.toNat hlo).trans (BitVec.toNat_ofNat _ _)
  rw [hdecEnvelope_eq_ok, hlen]
  refine ⟨by omega, rfl, hflag, BitVec.eq_of_toNat_eq ?_, ?_, (congrArg crc16 hbody).trans hfcs.symm⟩
  · change ((byteOf (builtFrame na L P client ctrl info) 1).extractLsb' 4 4).toNat = 10
    rw [toNat_formatNibble]
    exact (congrArg (· / 16) hfmtNat).trans (by omega)
  · rw [toNat_lengthField]
    change (byteOf (frameOf _ _) 1).toNat % 16 * 256 + (byteOf (frameOf _ _) 2).toNat = _
    rw [hfmtNat, hloNat]
    omega

theorem hdecAddresses_builtFrame (hna : na = 1 ∨ na = 2 ∨ na = 4) (hclient : client.toNat ≤ 0x7F) :
    hdecAddresses (builtFrame na L P client ctrl info) = .ok (serverBytes L P na, client, 4 + na) := by
  have hsrv := length_serverBytes L P hna
  have hlen := length_builtFrame (L := L) (P := P) (client := client) (ctrl := ctrl) (info := info) hna
  have hge := frameLen_ge na info.length
  obtain ⟨-, -, hbytes, -, hcl, -⟩ := frameOf_fields (LEN := frameLen na info.length) (client := clientByte client)
    (ctrl := ctrl) (info := info) hsrv
  change byteOf (builtFrame na L P client ctrl info) (3 + na) = _ at hcl
  have hwalk : hdecWalk (builtFrame na L P client ctrl info) (frameLen na info.length - 1) 4 3
      = .ok (serverBytes L P na, 3 + na) := by
    have h := hdecWalk_of_bytes (F := builtFrame na L P client ctrl info) (d := serverBytes L P na) (room := 4) (p := 3)
      (limit := frameLen na info.length - 1) (List.ne_nil_of_length_pos (by omega)) (by omega) (by omega)
      (fun j hj => hbytes j (by omega)) (fun j hj => by rw [hsrv]; exact serverBytes_end hna (by omega))
    rwa [hsrv] at h
  have hbit : (clientByte client).getLsbD 0 = true := addrByte_end _ _
  rw [hdecAddresses, hlen, show frameLen na info.length + 2 - 3 = frameLen na info.length - 1 by omega, hwalk, ok_bind]
  dsimp only
  rw [raiseIf_bind, if_neg (by omega), raiseIf_bind, hcl, hbit, if_neg (by simp; omega), raiseIf_bind,
    if_neg (by omega), addrBits_clientByte hclient, show 3 + na + 1 = 4 + na by omega]
  rfl

theorem hdecInfo_builtFrame (hna : na = 1 ∨ na = 2 ∨ na = 4) :
    hdecInfo (builtFrame na L P client ctrl info) (4 + na) = .ok info := by
  have hlen := length_builtFrame (L := L) (P := P) (client := client) (ctrl := ctrl) (info := info) hna
  have hhdr := length_frameHeader (LEN := frameLen na info.length) (client := clientByte client) (ctrl := ctrl)
    (length_serverBytes L P hna)
  have hstart := slice_frameOf_header (frameHeader (frameLen na info.length) (serverBytes L P na ++ [clientByte client])
    ctrl) info
  rw [hhdr, ← Nat.add_assoc] at hstart
  rw [hdecInfo_eq_ok, hlen]
  by_cases hinfo : info = []
  · subst hinfo
    exact .inl ⟨by rw [List.length_nil, frameLen, if_pos rfl]; omega, rfl⟩
  · have hne : info.length ≠ 0 := by simpa using hinfo
    obtain ⟨hhcs, hfield⟩ := frameOf_info hhdr hinfo
    refine .inr ⟨by rw [frameLen, if_neg hne]; omega, ?_, ?_⟩
    · rw [show 4 + na + 1 = 5 + na by omega, show 4 + na + 2 = 6 + na by omega]
      exact (congrArg crc16 hstart).trans hhcs.symm
    · rw [show 4 + na + 3 = 7 + na by omega]
      exact hfield.symm

theorem byteOf_builtFrame_ctrl (hna : na = 1 ∨ na = 2 ∨ na = 4) :
    byteOf (builtFrame na L P client ctrl info) (4 + na) = ctrl := by
  obtain ⟨-, -, -, -, -, hctrl⟩ := frameOf_fields (LEN := frameLen na info.length) (client := clientByte client)
    (ctrl := ctrl) (info := info) (length_serverBytes L P hna)
  exact hctrl

/-- On a built frame HDEC goes on with the control byte and the information field. -/
theorem hdecParse_builtFrame (hna : na = 1 ∨ na = 2 ∨ na = 4) (hclient : client.toNat ≤ 0x7F)
    (hfit : frameLen na info.length ≤ 0xFFF) (p : Config.Params) (sel : Bool) :
    hdecParse p sel (builtFrame na L P client ctrl info)
      = hdecPayload p sel (4 + na) ctrl info >>= fun a => .ok (recordOf (serverBytes L P na) client ctrl a.1 a.2) := by
  rw [hdecParse, hdecEnvelope_builtFrame hna hfit, ok_bind, hdecAddresses_builtFrame hna hclient, ok_bind]
  dsimp only
  rw [hdecInfo_builtFrame hna, ok_bind, byteOf_builtFrame_ctrl hna]
  rfl

end

/-! ## HDEC on the frame that HENC built -/

theorem Config.Params.tags_wf {p : Config.Params} (h : p.wf = true) : p.tags.wf = true := by
  simp only [Config.Params.wf, Bool.and_eq_true] at h
  exact h.2

/-- HENC sets bit 0x10 of every control byte (30_encoding.md R95). -/
theorem controlByte_pollFinal {t : Config.CtrlTags} (h : t.wf = true) (c : FrameCmd) (x y : BitVec 3) :
    (controlByte t c x y).getLsbD 4 = true := by
  by_cases hc : c = .I
  · subst hc
    rw [controlByte_I h]
    exact sequenceByte_pollFinal _ _
  · rw [controlByte_of_ne_I hc, BitVec.getLsbD_or]
    exact Bool.or_true _

/-- A wrong LLC header of an I or UI frame stops step 13. -/
theorem hdecPayload_of_llc_missing {p : Config.Params} {sel : Bool} {c : Nat} {ctrl : Byte} {info : List Byte}
    {cmd : FrameCmd} (hbit : ctrl.getLsbD 4 = true) (hclass : p.tags.classify ctrl = some cmd)
    (hcmd : cmd = .I ∨ cmd = .UI) (hllc : info.take 3 ≠ llcRx sel) :
    hdecPayload p sel c ctrl info = .error ⟨.invalidFraming, 10, if info = [] then c + 1 else c + 3⟩ := by
  rw [hdecPayload, raiseIf_bind, if_neg (by simp [hbit]), hclass]
  dsimp only
  rw [raiseIf_bind, if_pos ⟨hcmd, hllc⟩]

section
variable {s : State} {c : FrameCmd} {na : Nat} {sel : Bool}

/-- The payload of TXP as the decoder gives it back: a UI frame carries its LLC header in it. -/
theorem State.txInfo_without_llc (s : State) (c : FrameCmd) :
    (if c = .I ∨ c = .UI then (s.txInfo c).drop 3 else s.txInfo c)
      = (s.readBytes .txp 0 s.txpLen.toNat).drop (if c = .UI then 3 else 0) := by
  cases c <;> rfl

/-- HDEC's record of the frame that `henc(c)` builds from `s`. -/
def State.txRecord (s : State) (c : FrameCmd) (na : Nat) : ParsedFrame :=
  recordOf (serverBytes s.srvLog s.srvPhy na) s.clientAddr (controlByte s.params.tags c s.sss s.rrr) c
    ((s.readBytes .txp 0 s.txpLen.toNat).drop (if c = .UI then 3 else 0))

/-- The steps of HDEC before the payload pass on what HENC built. -/
theorem hdecParse_txFrame (hchecks : s.hencChecks = .ok na) (hfit : frameLen na (s.txInfo c).length ≤ 0xFFF) :
    hdecParse s.params sel (s.txFrame c na)
      = hdecPayload s.params sel (4 + na) (controlByte s.params.tags c s.sss s.rrr) (s.txInfo c) >>= fun a =>
          .ok (recordOf (serverBytes s.srvLog s.srvPhy na) s.clientAddr (controlByte s.params.tags c s.sss s.rrr)
            a.1 a.2) := by
  obtain ⟨-, halen, hclient, -⟩ := State.hencChecks_eq_ok.mp hchecks
  exact hdecParse_builtFrame (alenBytes_cases halen) hclient hfit s.params sel

theorem hdecParse_txFrame_eq_ok (hwf : s.params.wf = true) (hchecks : s.hencChecks = .ok na)
    (hfit : frameLen na (s.txInfo c).length ≤ 0xFFF) (hllc : c = .I ∨ c = .UI → (s.txInfo c).take 3 = llcRx sel) :
    hdecParse s.params sel (s.txFrame c na) = .ok (s.txRecord c na) := by
  have htags := Config.Params.tags_wf hwf
  obtain ⟨hpay, -⟩ := State.hencChecks_eq_ok.mp hchecks
  have hlen : ((s.readBytes .txp 0 s.txpLen.toNat).drop (if c = .UI then 3 else 0)).length ≤ s.params.payCap := by
    rw [List.length_drop, State.length_readBytes]
    omega
  rw [hdecParse_txFrame hchecks hfit, hdecPayload_eq_ok.mpr ⟨controlByte_pollFinal htags c s.sss s.rrr,
    classify_controlByte htags c s.sss s.rrr, hllc, (s.txInfo_without_llc c).symm, hlen⟩]
  rfl

theorem hdecParse_txFrame_of_llc_missing (hwf : s.params.wf = true) (hchecks : s.hencChecks = .ok na)
    (hfit : frameLen na (s.txInfo c).length ≤ 0xFFF) (hc : c = .I ∨ c = .UI)
    (hllc : (s.txInfo c).take 3 ≠ llcRx sel) :
    hdecParse s.params sel (s.txFrame c na)
      = .error ⟨.invalidFraming, 10, if s.txInfo c = [] then 4 + na + 1 else 4 + na + 3⟩ := by
  have htags := Config.Params.tags_wf hwf
  rw [hdecParse_txFrame hchecks hfit, hdecPayload_of_llc_missing (controlByte_pollFinal htags c s.sss s.rrr)
    (classify_controlByte htags c s.sss s.rrr) hc hllc]
  rfl

end

/-! ## From TXF to RXF -/

/-- What was stored from the start of a buffer is read back. -/
theorem readBytes_of_storesOnly {b : BufName} {k : Nat} {bs : List Byte} {s t : State} (h : storesOnly b k bs s t) :
    t.readBytes b k bs.length = bs := by
  obtain ⟨hstored, -⟩ := h
  refine List.ext_getElem (by simp) fun j _ hj => ?_
  rw [← Option.some_inj, ← List.getElem?_eq_getElem, State.getElem?_readBytes, if_pos hj]
  exact congrArg some (hstored j _ (List.getElem?_eq_getElem hj))

section
variable {s t : State} {c : FrameCmd}

/-- TXF holds the frame that HENC stored. -/
theorem State.readBytes_storeFrame {na : Nat} (hchecks : s.hencChecks = .ok na)
    (hfit : frameLen na (s.txInfo c).length ≤ 0xFFF) :
    (s.storeFrame (s.txFrame c na)).readBytes .txf 0 (s.storeFrame (s.txFrame c na)).txfLen.toNat
      = s.txFrame c na := by
  have hlen := State.length_txFrame (c := c) hchecks
  rw [State.toNat_storeFrame_txfLen hchecks hfit, ← hlen]
  exact readBytes_of_storesOnly (State.storesOnly_storeFrame (by omega))

/-- XFER.F2R after a HENC that ended with STATUS 0: RXF holds the frame, and what HDEC looks at besides is kept. -/
theorem exec_xferF2r_of_exec_henc (h : exec c.henc s = .next t) (h0 : t.status = 0) :
    ∃ na u, s.hencChecks = .ok na ∧ frameLen na (s.txInfo c).length ≤ 0xFFF ∧ exec .xferF2r t = .next u
      ∧ u.rxFrame = s.txFrame c na ∧ u.rxfLen.toNat ≤ Config.frameCap ∧ u.params = s.params ∧ u.cfg = s.cfg := by
  obtain ⟨na, hchecks, hfit, rfl⟩ := exec_henc_eq_done h h0
  have hlen : (s.storeFrame (s.txFrame c na)).txfLen.toNat = frameLen na (s.txInfo c).length + 2 :=
    State.toNat_storeFrame_txfLen hchecks hfit
  have hframe := State.readBytes_storeFrame (c := c) hchecks hfit
  generalize hS : s.storeFrame (s.txFrame c na) = S at *
  have hpar : S.params = s.params ∧ S.cfg = s.cfg := by
    rw [← hS, State.storeFrame_eq_with]
    exact ⟨rfl, rfl⟩
  refine ⟨na, _, hchecks, hfit, exec_xferF2r S.done, ?_, ?_, ?_⟩
  · have hcopy := readBytes_of_storesOnly (storesOnly_copyBuf S.done .txf .rxf S.done.txfLen)
    rw [State.length_readBytes] at hcopy
    have hrx : (S.done.copyBuf .txf .rxf S.done.txfLen).done.rxfLen = S.txfLen := S.done.len_copyBuf .txf .rxf _
    rw [State.rxFrame, hrx]
    exact hcopy.trans hframe
  · have hrx : (S.done.copyBuf .txf .rxf S.done.txfLen).done.rxfLen = S.txfLen := S.done.len_copyBuf .txf .rxf _
    rw [hrx, hlen]
    exact Nat.add_le_add_right hfit 2
  · rw [State.copyBuf_eq_putLen_setBuf]
    exact hpar

/-- A frame that the steps of HDEC refuse is reported, with the results cleared. -/
theorem hdecFails_of_parse_error {e : CmdError} (hcap : s.rxfLen.toNat ≤ Config.frameCap)
    (hp : hdecParse s.params s.llcRxSel s.rxFrame = .error e) (hsub : e.sub < 256) (hoff : e.off < 65536) :
    Claims.hdecFails s e.code.num e.sub e.off := by
  have hx : exec .hdec s = _ := execHdec_of_parse_error hcap hp
  rw [Claims.hdecFails, hx, State.raise, CmdError.infoWord_eq hsub hoff, State.clearRx_errsticky]
  rfl

/-- RXP holds the payload of the record. -/
theorem readBytes_putRx {r : ParsedFrame} (h : r.pay.length < 65536) :
    (s.putRx r).readBytes .rxp 0 (s.putRx r).rxpLen.toNat = r.pay := by
  have hlen : (BitVec.ofNat 16 r.pay.length).toNat = r.pay.length := Nat.mod_eq_of_lt h
  have hrx : (s.putRx r).rxpLen = BitVec.ofNat 16 r.pay.length := by rw [State.putRx_eq_with]
  rw [hrx, hlen]
  exact readBytes_of_storesOnly (storesOnly_congr rfl rfl
    (storesOnly_setLen_writeBytes (s := s) (b := .rxp) (i := 0) (by rw [Nat.zero_add]; exact hlen.ge)))

end

/-- Settles O33: RXF holds the frame that HENC built, and every field of its record is the operand it was built from. -/
theorem loopbackRoundTrip : Obligations.LoopbackRoundTrip := by
  intro c s t hwf h h0 hI hUI
  obtain ⟨na, u, hchecks, hfit, hu, hframe, hcap, hpar, hcfg⟩ := exec_xferF2r_of_exec_henc h h0
  obtain ⟨hpay, halen, -, hlog, hphy⟩ := State.hencChecks_eq_ok.mp hchecks
  have hna := alenBytes_cases halen
  have hsel : u.llcRxSel = s.cfg.getLsbD 0 := congrArg (·.getLsbD 0) hcfg
  have hparse : hdecParse u.params u.llcRxSel u.rxFrame = .ok (s.txRecord c na) := by
    rw [hpar, hframe, hsel]
    refine hdecParse_txFrame_eq_ok hwf hchecks hfit ?_
    rintro (rfl | rfl)
    · rw [hI rfl]
      rfl
    · exact hUI rfl
  have hserver : ((s.txRecord c na).log, (s.txRecord c na).phy) = (s.srvLog, s.srvPhy) :=
    serverOf_serverBytes hna hlog hphy
  obtain ⟨hreclog, hrecphy⟩ := Prod.mk.inj hserver
  have hrecalen : (BitVec.ofNat 3 (s.txRecord c na).alen).toNat = na := by
    change (BitVec.ofNat 3 (serverBytes _ _ na).length).toNat = na
    rw [length_serverBytes _ _ hna, BitVec.toNat_ofNat]
    omega
  have hreclen : (s.txRecord c na).pay.length < 65536 := by
    change ((s.readBytes .txp 0 s.txpLen.toNat).drop _).length < 65536
    rw [List.length_drop, State.length_readBytes]
    omega
  have hback := readBytes_putRx (s := u) hreclen
  refine ⟨u, (u.putRx (s.txRecord c na)).done, hu, execHdec_of_parse_ok hcap hparse, rfl, ?_⟩
  change _ ∧ _ ∧ _ ∧ _ ∧ _ ∧ _ ∧ _ ∧ (u.putRx (s.txRecord c na)).readBytes .rxp 0 _ = _
  rw [State.done_rxpLen, hback, State.putRx_eq_with]
  refine ⟨toNat_index_setWidth c, rfl, hreclog, hrecphy, halen.trans (congrArg some hrecalen.symm), ?_,
    fun hc => ⟨if_neg hc, if_neg hc⟩, rfl⟩
  rintro rfl
  have hbyte : controlByte s.params.tags .I s.sss s.rrr = sequenceByte (s.sss + 1) s.rrr :=
    controlByte_I (Config.Params.tags_wf hwf) s.sss s.rrr
  exact ⟨(congrArg ctrlSend hbyte).trans (ctrlSend_sequenceByte s.sss s.rrr),
    (congrArg ctrlRecv hbyte).trans (sequenceByte_recv _ _)⟩

/-- Settles O34: the payload of an I frame begins with the header that HDEC takes for the other direction only. -/
theorem loopbackOfIFrameNeedsTheLlcSelection : Obligations.LoopbackOfIFrameNeedsTheLlcSelection := by
  intro s t na hwf h h0 hsel halen
  obtain ⟨na', u, hchecks, hfit, hu, hframe, hcap, hpar, hcfg⟩ := exec_xferF2r_of_exec_henc (c := .I) h h0
  obtain ⟨-, halen', -⟩ := State.hencChecks_eq_ok.mp hchecks
  obtain rfl : na = na' := Option.some.inj (halen.symm.trans halen')
  have hna := alenBytes_cases halen
  have hllc : (s.txInfo .I).take 3 ≠ llcRx false := by
    change llcTx ≠ llcRx false
    decide
  have hparse : hdecParse u.params u.llcRxSel u.rxFrame = .error ⟨.invalidFraming, 10, 4 + na + 3⟩ := by
    rw [hpar, hframe, State.llcRxSel, hcfg, hsel, hdecParse_txFrame_of_llc_missing hwf hchecks hfit (.inl rfl) hllc]
    rfl
  exact ⟨u, hu, hdecFails_of_parse_error hcap hparse (by dsimp only; omega) (by dsimp only; omega)⟩

end Sys2Proof.Machine
end

section
/-!
HDEC on an accepted frame with one bit inverted (44_hdlc_decode.md R186): the first of its steps 1 to 6 that such a
frame fails, by the place of the bit, and the statement about it.
-/

namespace Sys2Proof.Machine

-- One declaration after another: elaborated in parallel they take more memory than a check has.
set_option Elab.async false

/-! ## The bytes of a frame with one bit inverted -/

section
variable {F : List Byte} {i j k a b : Nat}

theorem byteOf_flipBit_same (h : i < F.length) : byteOf (Claims.flipBit F i k) i = byteOf F i ^^^ 1#8 <<< k := by
  rw [byteOf_eq_getElem (by rwa [length_flipBit])]
  exact List.getElem_set_self _

theorem byteOf_flipBit_ne (h : j ≠ i) : byteOf (Claims.flipBit F i k) j = byteOf F j := by
  rw [byteOf, byteOf, Claims.flipBit, List.getD_eq_getElem?_getD, List.getElem?_set_ne h.symm,
    List.getD_eq_getElem?_getD]

theorem byteOf_flipBit_changed (hk : k < 8) (h : i < F.length) : byteOf (Claims.flipBit F i k) i ≠ byteOf F i := by
  rw [byteOf_flipBit_same h]
  exact xor_bit_ne _ hk

theorem byteOf_slice (h : j < b - a) : byteOf (slice F a b) j = byteOf F (a + j) := by
  rw [byteOf, byteOf, slice, List.getD_eq_getElem?_getD, List.getD_eq_getElem?_getD, List.getElem?_take_of_lt h,
    List.getElem?_drop]

/-- A bit inside a slice is inverted in it. -/
theorem slice_flipBit_inside (ha : a ≤ i) (hb : i < b) :
    slice (Claims.flipBit F i k) a b = Claims.flipBit (slice F a b) (i - a) k := by
  rw [Claims.flipBit, Claims.flipBit, byteOf_slice (by omega), Nat.add_sub_cancel' ha, slice, slice, List.drop_set,
    if_neg (by omega), List.take_set]

/-- A bit behind a slice is none of its bits. -/
theorem slice_flipBit_behind (ha : a ≤ b) (hb : b ≤ i) : slice (Claims.flipBit F i k) a b = slice F a b := by
  rw [Claims.flipBit, slice, slice, List.drop_set, if_neg (by omega), List.take_set_of_le (by omega)]

end

/-! ## The format byte -/

section
variable {b c : Byte} {k : Nat}

/-- A field is changed exactly by a change of its own bits. -/
theorem extractLsb'_xor_eq_self {m : Byte} {st n : Nat} :
    (b ^^^ m).extractLsb' st n = b.extractLsb' st n ↔ m.extractLsb' st n = 0 := by
  rw [BitVec.extractLsb'_xor]
  refine ⟨fun h => BitVec.xor_right_inj _ |>.mp (h.trans BitVec.xor_zero.symm), fun h => ?_⟩
  rw [h]
  exact BitVec.xor_zero

theorem extractLsb'_format_of_high_bit (hk : k < 8) (h : 4 ≤ k) :
    (b ^^^ 1#8 <<< k).extractLsb' 4 4 ≠ b.extractLsb' 4 4 := by
  rw [ne_eq, extractLsb'_xor_eq_self]
  interval_cases k <;> decide

theorem extractLsb'_format_of_low_bit (h : k < 4) : (b ^^^ 1#8 <<< k).extractLsb' 4 4 = b.extractLsb' 4 4 := by
  rw [extractLsb'_xor_eq_self]
  interval_cases k <;> rfl

theorem extractLsb'_length_of_low_bit (h : k < 4) : (b ^^^ 1#8 <<< k).extractLsb' 0 4 ≠ b.extractLsb' 0 4 := by
  rw [ne_eq, extractLsb'_xor_eq_self]
  interval_cases k <;> decide

/-- The declared length decides its two parts. -/
theorem lengthField_injective {b' c' : Byte}
    (h : (b.extractLsb' 0 4 ++ c : BitVec 12).toNat = (b'.extractLsb' 0 4 ++ c' : BitVec 12).toNat) :
    b.extractLsb' 0 4 = b'.extractLsb' 0 4 ∧ c = c' := by
  have heq := BitVec.eq_of_toNat_eq h
  have hhigh := congrArg (BitVec.extractLsb' 8 4) heq
  have hlow := congrArg (BitVec.extractLsb' 0 8) heq
  rw [BitVec.extractLsb'_append_eq_left, BitVec.extractLsb'_append_eq_left] at hhigh
  rw [BitVec.extractLsb'_append_eq_right, BitVec.extractLsb'_append_eq_right] at hlow
  exact ⟨hhigh, hlow⟩

end

/-! ## The first step that fails -/

/-- Steps 1 to 6 in their order. -/
theorem hdecEnvelope_eq_ite (F : List Byte) : hdecEnvelope F =
    if F.length < 9 then .error ⟨.invalidFraming, 1, 0⟩
    else if byteOf F 0 ≠ 0x7E then .error ⟨.invalidFraming, 2, 0⟩
    else if byteOf F (F.length - 1) ≠ 0x7E then .error ⟨.invalidFraming, 3, F.length - 1⟩
    else if (byteOf F 1).extractLsb' 4 4 ≠ 0xA then .error ⟨.invalidFraming, 4, 1⟩
    else if ((byteOf F 1).extractLsb' 0 4 ++ byteOf F 2 : BitVec 12).toNat ≠ F.length - 2 then
      .error ⟨.lengthMismatch, 0, 1⟩
    else if crc16 (slice F 1 (F.length - 3)) ≠ ofLe16 (byteOf F (F.length - 3)) (byteOf F (F.length - 2)) then
      .error ⟨.checksumMismatch, 1, F.length - 3⟩
    else .ok () := by
  simp only [hdecEnvelope, raiseIf_bind]
  rfl

section
variable {F : List Byte} {i k : Nat}

/-- The bytes that the FCS covers, or the FCS itself, have changed. -/
theorem crc16_flipBit_ne_fcs (h9 : 9 ≤ F.length) (hk : k < 8) (hi : 1 ≤ i) (hi' : i < F.length - 1)
    (hcrc : crc16 (slice F 1 (F.length - 3)) = ofLe16 (byteOf F (F.length - 3)) (byteOf F (F.length - 2))) :
    crc16 (slice (Claims.flipBit F i k) 1 (F.length - 3))
      ≠ ofLe16 (byteOf (Claims.flipBit F i k) (F.length - 3)) (byteOf (Claims.flipBit F i k) (F.length - 2)) := by
  have hchanged := byteOf_flipBit_changed hk (F := F) (i := i) (by omega)
  by_cases hcovered : i < F.length - 3
  · rw [slice_flipBit_inside hi hcovered, byteOf_flipBit_ne (by omega), byteOf_flipBit_ne (by omega), ← hcrc]
    refine crc16_flipBit_ne hk ?_
    rw [slice, List.length_take, List.length_drop]
    omega
  · rw [slice_flipBit_behind (by omega) (by omega), hcrc]
    intro h
    obtain ⟨hlo, hhi⟩ := word_injective h
    obtain rfl | rfl : i = F.length - 3 ∨ i = F.length - 2 := by omega
    · exact hchanged hlo.symm
    · exact hchanged hhi.symm

/-- One inverted bit of a frame that passes steps 1 to 6 makes it fail one of them, which its place decides. -/
theorem hdecEnvelope_flipBit (h : hdecEnvelope F = .ok ()) (hi : i < F.length) (hk : k < 8) :
    ∃ e, hdecEnvelope (Claims.flipBit F i k) = .error e
      ∧ (e.code.num, e.sub, e.off) = Claims.flipError F.length i k := by
  obtain ⟨h9, hfirst, hlast, hformat, hlength, hcrc⟩ := hdecEnvelope_eq_ok.mp h
  have hchanged := byteOf_flipBit_changed hk hi
  have hother {j : Nat} (hj : j ≠ i) : byteOf (Claims.flipBit F i k) j = byteOf F j := byteOf_flipBit_ne hj
  rw [hdecEnvelope_eq_ite, length_flipBit, if_neg (by omega), Claims.flipError]
  by_cases h0 : i = 0
  · subst h0
    rw [if_pos (hfirst ▸ hchanged), if_pos rfl]
    exact ⟨_, rfl, rfl⟩
  rw [hother (Ne.symm h0), if_neg (not_not.mpr hfirst), if_neg h0]
  by_cases hend : i = F.length - 1
  · rw [← hend] at hlast ⊢
    rw [if_pos (hlast ▸ hchanged), if_pos rfl]
    exact ⟨_, rfl, rfl⟩
  rw [hother (Ne.symm hend), if_neg (not_not.mpr hlast), if_neg hend]
  by_cases h1 : i = 1
  · subst h1
    rw [if_pos rfl, byteOf_flipBit_same hi]
    by_cases h4 : 4 ≤ k
    · rw [if_pos (hformat ▸ extractLsb'_format_of_high_bit hk h4), if_pos h4]
      exact ⟨_, rfl, rfl⟩
    · have hfield : ((byteOf F 1 ^^^ 1#8 <<< k).extractLsb' 0 4 ++ byteOf F 2 : BitVec 12).toNat ≠ F.length - 2 :=
        fun hsame => extractLsb'_length_of_low_bit (Nat.not_le.mp h4)
          (lengthField_injective (hsame.trans hlength.symm)).1
      rw [extractLsb'_format_of_low_bit (Nat.not_le.mp h4), if_neg (not_not.mpr hformat), hother (by decide),
        if_pos hfield, if_neg h4]
      exact ⟨_, rfl, rfl⟩
  rw [hother (Ne.symm h1), if_neg (not_not.mpr hformat), if_neg h1]
  by_cases h2 : i = 2
  · subst h2
    have hfield : ((byteOf F 1).extractLsb' 0 4 ++ byteOf (Claims.flipBit F 2 k) 2 : BitVec 12).toNat ≠ F.length - 2 :=
      fun hsame => hchanged (lengthField_injective (hsame.trans hlength.symm)).2
    rw [if_pos hfield, if_pos rfl]
    exact ⟨_, rfl, rfl⟩
  rw [hother (Ne.symm h2), if_neg (not_not.mpr hlength), if_neg h2,
    if_pos (crc16_flipBit_ne_fcs h9 hk (by omega) (by omega) hcrc)]
  exact ⟨_, rfl, rfl⟩

end

theorem flipError_bounds {n i k : Nat} (hi : i < n) :
    (Claims.flipError n i k).2.1 ≤ 4 ∧ (Claims.flipError n i k).2.2 < max n 2 := by
  unfold Claims.flipError
  split_ifs <;> simp <;> omega

/-- A HDEC that ends with STATUS 0 has accepted its frame. -/
theorem exec_hdec_eq_done {s t : State} (h : exec .hdec s = .next t) (h0 : t.status = 0) :
    s.rxfLen.toNat ≤ Config.frameCap ∧ ∃ r, hdecParse s.params s.llcRxSel s.rxFrame = .ok r := by
  obtain ⟨-, hx⟩ | ⟨hcap, ⟨e, -, hx⟩ | ⟨r, hr, -⟩⟩ := execHdec_cases s
  · cases hx.symm.trans h
    exact absurd h0 (CmdError.statusWord_ne_zero _)
  · cases hx.symm.trans h
    exact absurd h0 e.statusWord_ne_zero
  · exact ⟨hcap, r, hr⟩

/-- Settles O35: the frame passed steps 1 to 6, and with the bit inverted it fails the one that its place decides. -/
theorem hdecReportsEverySingleBitFlip : Obligations.HdecReportsEverySingleBitFlip := by
  intro s t s' i k h h0 hi hk hlen hframe
  obtain ⟨hcap, r, hr⟩ := exec_hdec_eq_done h h0
  obtain ⟨henvelope, -⟩ := hdecParse_eq_ok.mp hr
  have hrx : s'.rxFrame = Claims.flipBit s.rxFrame i k := by rw [State.rxFrame, hlen]; exact hframe
  obtain ⟨e, he, hflip⟩ := hdecEnvelope_flipBit henvelope (i := i) (by rwa [State.rxFrame, State.length_readBytes]) hk
  rw [State.rxFrame, State.length_readBytes] at hflip
  have hparse : hdecParse s'.params s'.llcRxSel s'.rxFrame = .error e := by
    rw [hrx, hdecParse, he]
    rfl
  have hbounds := flipError_bounds hi (k := k)
  rw [← hflip] at hbounds ⊢
  exact hdecFails_of_parse_error (hlen ▸ hcap) hparse (hbounds.1.trans_lt (by decide)) (hbounds.2.trans_le (by omega))

end Sys2Proof.Machine
end

section
/-!
TXF holds no frame or one that the decoder would take (10_state.md R50): what leaves TXF alone, what HENC stores there,
and the statement about a step.
-/

namespace Sys2Proof.Machine

-- One declaration after another: elaborated in parallel they take more memory than a check has.
set_option Elab.async false

section
variable {s t u : State} {i : Instr}

/-- `t` has the TXF, the TXF_LEN and the parameters of `s`. -/
def SameTxf (s t : State) : Prop := t.txf = s.txf ∧ t.txfLen = s.txfLen ∧ t.params = s.params

theorem SameTxf.txfOk (h : SameTxf s t) (hs : s.txfOk) : t.txfOk := by
  obtain ⟨hbuf, hlen, hpar⟩ := h
  simpa only [State.txfOk, State.readBytes, State.byteAt, State.buf, hbuf, hlen, hpar] using hs

/-! ## What HENC stores -/

/-- A frame that HENC builds is accepted, or is a UI frame without an LLC header (10_state.md R50). -/
theorem txfOk_storeFrame (hwf : s.params.wf = true) {c : FrameCmd} {F : List Byte} (hF : s.hencFrame c = .ok F) :
    (s.storeFrame F).txfOk := by
  obtain ⟨na, hchecks, hF⟩ := bind_eq_ok.mp hF
  obtain ⟨_, hfit, hF⟩ := bind_eq_ok.mp hF
  cases hF
  replace hfit := Nat.not_lt.mp (raiseIf_eq_ok.mp hfit)
  obtain ⟨-, halen, hclient, -⟩ := State.hencChecks_eq_ok.mp hchecks
  have hna := alenBytes_cases halen
  have hpar : (s.storeFrame (s.txFrame c na)).params = s.params := by rw [State.storeFrame_eq_with]
  refine .inr ?_
  rw [State.readBytes_storeFrame hchecks hfit, hpar]
  by_cases hllc : ∃ sel, c = .I ∨ c = .UI → (s.txInfo c).take 3 = llcRx sel
  · obtain ⟨sel, hllc⟩ := hllc
    exact .inl ⟨sel, _, hdecParse_txFrame_eq_ok hwf hchecks hfit hllc⟩
  · simp only [not_exists, Classical.not_imp] at hllc
    obtain rfl | rfl := (hllc true).1
    · exact absurd rfl (hllc true).2
    · refine .inr ⟨_, _, _, _, hdecAddresses_builtFrame hna hclient, ?_, fun sel =>
        hdecParse_txFrame_of_llc_missing hwf hchecks hfit (.inr rfl) (hllc sel).2⟩
      exact (congrArg _ (byteOf_builtFrame_ctrl hna)).trans
        (classify_controlByte (Config.Params.tags_wf hwf) .UI s.sss s.rrr)

/-! ## Commands and host accesses -/

/-- Writes to another buffer and its length register. -/
theorem sameTxf_store {b : BufName} (hb : b ≠ .txf) (k : Nat) (bs : List Byte) (v : Word16) :
    SameTxf s ((s.writeBytes b k bs).setLen b v) :=
  ⟨(State.buf_setLen_ne _ hb.symm v).trans (State.buf_writeBytes_ne s hb.symm k bs),
    (State.len_setLen_ne _ hb.symm v).trans (State.len_writeBytes s b .txf k bs), by simp⟩

theorem sameTxf_setLen {b : BufName} (hb : b ≠ .txf) (v : Word16) : SameTxf s (s.setLen b v) :=
  ⟨State.buf_setLen_ne s hb.symm v, State.len_setLen_ne s hb.symm v, by simp⟩

/-- The three fields decide. -/
theorem SameTxf.congr (h : SameTxf s t) (hbuf : u.txf = t.txf) (hlen : u.txfLen = t.txfLen)
    (hpar : u.params = t.params) :
    SameTxf s u := by
  obtain ⟨hbuf', hlen', hpar'⟩ := h
  exact ⟨hbuf.trans hbuf', hlen.trans hlen', hpar.trans hpar'⟩

theorem sameTxf_putRx (s : State) (r : ParsedFrame) : SameTxf s (s.putRx r) := by
  rw [State.putRx_eq_with]
  exact ⟨rfl, rfl, rfl⟩

theorem sameTxf_storeString (s : State) (k n : Nat) : SameTxf s (s.storeString k n) := by
  rw [State.storeString_eq_with]
  exact ⟨rfl, rfl, rfl⟩

theorem txfOk_of_effect (hwf : s.params.wf = true) (hs : s.txfOk) (hu : Effect s i u) : u.txfOk := by
  cases hu with
  | registers => exact hs
  | cursor => exact hs
  | srst => exact .inl rfl
  | tlvClr => exact ((sameTxf_setLen (by decide) 0).congr rfl rfl rfl).txfOk hs
  | append => exact (sameTxf_store (by decide) _ _ _).txfOk hs
  | xferT2p => exact (sameTxf_store (by decide) _ _ _).txfOk hs
  | xferP2t => exact ((sameTxf_store (b := .tlb) (by decide) _ _ _).congr rfl rfl rfl).txfOk hs
  | xferF2r => exact (sameTxf_store (by decide) _ _ _).txfOk hs
  | henc hF => exact txfOk_storeFrame hwf hF
  | @string _ v k n => exact ((sameTxf_storeString s k n).congr rfl rfl rfl).txfOk hs
  | @hdec r => exact (sameTxf_putRx s r).txfOk hs

theorem sameTxf_stateToReportOn (i : Instr) (s : State) : SameTxf s (stateToReportOn i s) := by
  unfold stateToReportOn
  split
  · rw [State.clearRx_eq_with]
    exact ⟨rfl, rfl, rfl⟩
  · exact ⟨rfl, rfl, rfl⟩

theorem txfOk_of_exec (hwf : s.params.wf = true) (hs : s.txfOk) (h : exec i s = .next t) : t.txfOk := by
  obtain ⟨u, hu, rfl⟩ | ⟨e, rfl⟩ := exec_cases h
  · exact SameTxf.txfOk (s := u) ⟨rfl, rfl, rfl⟩ (txfOk_of_effect hwf hs hu)
  · exact ((sameTxf_stateToReportOn i s).congr rfl rfl rfl).txfOk hs

/-- No register that the host writes is TXF_LEN. -/
theorem sameTxf_writeReg (s : State) (r : Reg) (v : Word64) : SameTxf s (s.writeReg r v) := by
  cases r with
  | strLen | txpLen | rxfLen | tlbLen => exact sameTxf_setLen (by decide) _
  | _ => exact ⟨rfl, rfl, rfl⟩

/-- The host does not write TXF (10_state.md R42). -/
theorem sameTxf_hostWriteBytes (s : State) (b : BufName) (k : Nat) (bs : List Byte) :
    SameTxf s (s.hostWriteBytes b k bs) := by
  cases b <;> exact ⟨rfl, rfl, rfl⟩

theorem txfOk_of_hostAccess (hs : s.txfOk) {a : HostAction} (h : s.hostAccess a = .next t) : t.txfOk := by
  cases a with
  | wr r v => cases h; exact (sameTxf_writeReg s r v).txfOk hs
  | wrb b k bs => cases h; exact (sameTxf_hostWriteBytes s b k bs).txfOk hs
  | rd r => cases h; exact hs
  | rdb b k n =>
    simp only [State.hostAccess] at h
    split at h
    · cases h
    · cases h; exact hs
  | reset => cases h; exact .inl rfl

theorem txfOk_of_runCommand (hwf : s.params.wf = true) (hs : s.txfOk) {w : Word16} (h : runCommand w s = .next t) :
    t.txfOk := by
  unfold runCommand at h
  split at h
  · exact txfOk_of_exec (s := { s with cmd := w }) hwf hs h
  · cases h; exact hs

theorem txfOk_of_perform (hwf : s.params.wf = true) (hs : s.txfOk) {a : HostAction} (h : perform a s = .next t) :
    t.txfOk := by
  unfold perform at h
  split at h
  · exact txfOk_of_runCommand hwf hs h
  · exact txfOk_of_hostAccess hs h

end

/-- Settles O54: a step is nothing, a host access or a command, and of these only HENC stores a frame. -/
theorem stepKeepsAnAcceptableFrameInTxf : Obligations.StepKeepsAnAcceptableFrameInTxf := by
  intro s t hwf hs h
  cases hq : s.hostQueue with
  | nil =>
    cases (step_nil hq).symm.trans h
    exact hs
  | cons a rest =>
    rw [step_cons hq] at h
    exact txfOk_of_perform (s := { s with hostQueue := rest }) hwf hs h

end Sys2Proof.Machine
end

section
/-!
The TLV decode commands on a value that is all there (47_tlv_decode.md R241 to R257): what each of the three forms does
then, the conversions of the fixed-width form, and the statements about them.
-/

namespace Sys2Proof.Machine

-- One declaration after another: elaborated in parallel they take more memory than a check has.
set_option Elab.async false

/-! ## What a decode command does with a whole value -/

/-- The conversion from the number of the content bytes to VAL (47_tlv_decode.md R243, R245, R246, R249 to R257). -/
def decConv (t : TlvType) (x : Nat) : Word64 :=
  match t with
  | .bool => if x = 0 then 0 else 1
  | .i8 => sext64 8 x
  | .i16 => sext64 16 x
  | .i32 => sext64 32 x
  | _ => zext64 x

section
variable {t : TlvType} {s : State} {w m k : Nat}

theorem exec_dec_eq_decFixed (ht : hasFixedWidth t w) (s : State) :
    exec t.dec s = s.finish (s.decFixed t w (decConv t)) := by
  obtain h | ⟨rfl, rfl⟩ := ht
  · cases t with
    | arr | struct | bool | bstr | ostr | vstr => contradiction
    | i8 | u8 | enum | i16 | u16 | i32 | u32 | f32 | i64 | u64 | f64 => cases h; rfl
  · rfl

/-- VAL after a string command: only BIT_STRING writes it (47_tlv_decode.md R244, R247, R248). -/
def stringVal (t : TlvType) (s : State) (m : Nat) : Word64 := if t = .bstr then zext64 m else s.val

theorem exec_dec_eq_decString (ht : isStringType t) (s : State) :
    exec t.dec s = s.finish (s.decString t (Claims.contentBytes t) >>= fun a =>
      .ok { a.2 with val := stringVal t a.2 a.1 }) := by
  obtain rfl | rfl | rfl := ht <;> rfl

theorem exec_dec_fixed (ht : hasFixedWidth t w) (htag : Claims.tagAtCursor t s)
    (hend : s.tlbCur.toNat + 1 + w ≤ s.tlbLen.toNat) :
    exec t.dec s = .next
      (s.putVal (decConv t (ofBe (s.readBytes .tlb (s.tlbCur.toNat + 1) w))) (s.tlbCur.toNat + 1 + w)).done := by
  rw [exec_dec_eq_decFixed ht, State.decFixed, State.decOpen_of_tagAtCursor htag, ok_bind,
    State.need_eq_ok (u := ()) |>.mpr hend]
  rfl

theorem exec_dec_count (ht : isCountType t) (htag : Claims.tagAtCursor t s)
    (hr : s.rsizeAt (s.tlbCur.toNat + 1) = .ok (m, k)) :
    exec t.dec s = .next (s.putVal (zext64 m) (s.tlbCur.toNat + 1 + k)).done := by
  rw [exec_dec_of_isCountType ht, State.decCount, State.decOpen_of_tagAtCursor htag, ok_bind, hr]
  rfl

theorem exec_dec_string (ht : isStringType t) (htag : Claims.tagAtCursor t s)
    (hr : s.rsizeAt (s.tlbCur.toNat + 1) = .ok (m, k))
    (hend : s.tlbCur.toNat + 1 + k + Claims.contentBytes t m ≤ s.tlbLen.toNat)
    (hcap : Claims.contentBytes t m ≤ s.params.strCap) :
    exec t.dec s = .next ({ s.storeString (s.tlbCur.toNat + 1 + k) (Claims.contentBytes t m) with
      val := stringVal t s m } : State).done := by
  rw [exec_dec_eq_decString ht, State.decString_of_rsizeAt_ok htag hr, if_neg hend.not_gt, if_neg hcap.not_gt, ok_bind]
  simp only [stringVal, State.storeString_val]
  rfl

end

/-! ## Numbers in VAL -/

section
variable {t : TlvType} {n v w i j st : Nat}

theorem decConv_of_fixedWidth (h : Claims.fixedWidth t = some w) (x : Nat) :
    decConv t x = if Claims.isSigned t then sext64 (8 * w) x else zext64 x := by
  cases t with
  | arr | struct | bool | bstr | ostr | vstr => contradiction
  | i8 | u8 | enum | i16 | u16 | i32 | u32 | f32 | i64 | u64 | f64 => cases h; rfl

/-- Below its sign an extended number is the number. -/
theorem getLsbD_sext64_of_lt (hi : i < n) (hn : n ≤ 64) : (sext64 n v).getLsbD i = (zext64 v).getLsbD i := by
  rw [sext64, zext64, BitVec.getLsbD_signExtend, BitVec.getLsbD_ofNat, BitVec.getLsbD_ofNat]
  simp [hi, hi.trans_le hn]

theorem extractLsb'_sext64 (h : st + 8 ≤ n) (hn : n ≤ 64) :
    (sext64 n v).extractLsb' st 8 = (zext64 v).extractLsb' st 8 := by
  ext i hi
  simp only [BitVec.getElem_extractLsb']
  exact getLsbD_sext64_of_lt (by omega) hn

/-- From its sign on, an extended number repeats it. -/
theorem getLsbD_sext64_of_le (hi : n ≤ i) (hi' : i < 64) (hn : 0 < n) :
    (sext64 n v).getLsbD i = (zext64 v).getLsbD (n - 1) := by
  rw [sext64, zext64, BitVec.getLsbD_signExtend, if_neg (by omega), BitVec.msb_eq_getLsbD_last, BitVec.getLsbD_ofNat,
    BitVec.getLsbD_ofNat]
  simp [hi', hn, show n - 1 < 64 by omega]

end

section
variable {t : TlvType} {s : State} {w q : Nat}

theorem fixedWidth_bounds (h : Claims.fixedWidth t = some w) : 1 ≤ w ∧ w ≤ 8 := by
  cases t <;> cases h <;> decide

/-- VAL holds the content bytes. -/
theorem extractLsb'_decConv (h : Claims.fixedWidth t = some w) {j : Nat} (hj : j < w) :
    (decConv t (ofBe (s.readBytes .tlb q w))).extractLsb' (8 * (w - 1 - j)) 8 = s.byteAt .tlb (q + j) := by
  obtain ⟨-, hw⟩ := fixedWidth_bounds h
  rw [decConv_of_fixedWidth h]
  split
  · rw [extractLsb'_sext64 (by omega) (by omega), extractLsb'_zext64_ofBe_readBytes s .tlb q hw hj]
  · exact extractLsb'_zext64_ofBe_readBytes s .tlb q hw hj

/-- Above them VAL holds zeros, or the sign of a signed type. -/
theorem getLsbD_decConv (h : Claims.fixedWidth t = some w) {i : Nat} (hi : 8 * w ≤ i) (hi' : i < 64) :
    (decConv t (ofBe (s.readBytes .tlb q w))).getLsbD i = (Claims.isSigned t && (s.byteAt .tlb q).getLsbD 7) := by
  obtain ⟨hw1, hw⟩ := fixedWidth_bounds h
  have hfirst : (zext64 (ofBe (s.readBytes .tlb q w))).extractLsb' (8 * (w - 1)) 8 = s.byteAt .tlb q :=
    extractLsb'_zext64_ofBe_readBytes s .tlb q hw hw1
  rw [decConv_of_fixedWidth h]
  cases hsigned : Claims.isSigned t with
  | true =>
    rw [if_pos rfl, Bool.true_and, getLsbD_sext64_of_le hi hi' (by omega), ← hfirst, BitVec.getLsbD_extractLsb',
      show 8 * w - 1 = 8 * (w - 1) + 7 by omega]
    rfl
  | false =>
    have hlt : ofBe (s.readBytes .tlb q w) < 2 ^ i :=
      (ofBe_lt _).trans_le (Nat.pow_le_pow_right (by decide) (by rwa [State.length_readBytes]))
    rw [if_neg Bool.false_ne_true, Bool.false_and, zext64, BitVec.getLsbD_ofNat, Nat.testBit_lt_two_pow hlt,
      Bool.and_false]

theorem decConv_bool (b : Byte) : decConv .bool b.toNat = if b = 0 then 0 else 1 :=
  ite_cond_congr (propext (BitVec.toNat_inj (y := 0)))

theorem ofBe_readBytes_one (s : State) (b : BufName) (q : Nat) : ofBe (s.readBytes b q 1) = (s.byteAt b q).toNat := by
  simp [State.readBytes, ofBe]

end

/-- Settles O46: VAL is the conversion of the number of the content bytes. -/
theorem decFixedWidthValues : Obligations.DecFixedWidthValues := by
  refine fun s => ⟨fun t w hw htag hend => ⟨_, exec_dec_fixed (.inl hw) htag hend,
    fun j hj => extractLsb'_decConv hw hj, fun i hi hi' => getLsbD_decConv hw hi hi'⟩, fun htag hend => ?_⟩
  have hx : exec .tlvDecBool s = _ := exec_dec_fixed (t := .bool) (.inr ⟨rfl, rfl⟩) htag hend
  have hcur : BitVec.ofNat 16 (s.tlbCur.toNat + 1 + 1) = s.tlbCur + 2 := by
    rw [Nat.add_assoc, BitVec.ofNat_add, BitVec.ofNat_toNat, BitVec.setWidth_eq]
    rfl
  rw [hx, ofBe_readBytes_one, decConv_bool, State.putVal, hcur]
  rfl

theorem State.storesOnly_storeString (s : State) {i n : Nat} (hn : n < 65536) :
    storesOnly .str 0 (s.readBytes .tlb i n) s (s.storeString i n) := by
  have hlen : (BitVec.ofNat 16 n).toNat = n := Nat.mod_eq_of_lt hn
  refine storesOnly_congr ?_ ?_ (storesOnly_setLen_writeBytes (v := BitVec.ofNat 16 n) ?_)
  · rfl
  · rfl
  · rw [State.length_readBytes, hlen, Nat.zero_add]

/-- Settles O47: the length field that was read decides the writes. -/
theorem decCountsAndStrings : Obligations.DecCountsAndStrings := by
  intro s m k hr
  refine ⟨fun t ht htag => exec_dec_count ht htag hr, fun t ht htag => ?_⟩
  intro n hend hcap
  have hx := exec_dec_string ht htag hr hend hcap
  have hstores := s.storesOnly_storeString (i := s.tlbCur.toNat + 1 + k) (n := n) (by omega)
  have hwith := s.storeString_eq_with (s.tlbCur.toNat + 1 + k) n
  change exec t.dec s = .next ({ s.storeString (s.tlbCur.toNat + 1 + k) n with val := stringVal t s m } : State).done
    at hx
  generalize s.storeString (s.tlbCur.toNat + 1 + k) n = u at hx hstores hwith
  refine ⟨_, hx, ⟨rfl, rfl⟩, storesOnly_congr rfl rfl hstores, ?_, ?_, rfl, ?_⟩
  · rw [hwith]
    exact Nat.mod_eq_of_lt (by omega)
  · rw [hwith]
    exact Nat.mod_eq_of_lt (by omega)
  · rw [hwith]
    rfl

end Sys2Proof.Machine
end

section
/-!
The length field read back (45_tlv_cursor.md R201), the operand errors and lengths of the TLV encode commands
(46_tlv_encode.md R214 to R228), and the statements about them.
-/

namespace Sys2Proof.Machine

-- One declaration after another: elaborated in parallel they take more memory than a check has.
set_option Elab.async false

/-! ## The number of its bytes -/

theorem ofBe_cons (b : Byte) (bs : List Byte) : ofBe (b :: bs) = b.toNat * 256 ^ bs.length + ofBe bs := by
  induction bs using List.reverseRecOn with
  | nil => simp [ofBe]
  | append_singleton bs c ih =>
    rw [← List.cons_append, ofBe_concat, ofBe_concat, ih, List.length_append, List.length_singleton, Nat.pow_succ]
    ring

@[simp] theorem length_be (n v : Nat) : (be n v).length = n := by
  rw [be_eq_map, List.length_map, List.length_range]

/-- `be` writes the number modulo 256 to the number of bytes (20_memory.md R64). -/
theorem ofBe_be (n v : Nat) : ofBe (be n v) = v % 256 ^ n := by
  induction n with
  | zero => rw [Nat.pow_zero, Nat.mod_one]; rfl
  | succ n ih =>
    have hsplit : v % 256 ^ (n + 1) = v % 256 ^ n + 256 ^ n * (v / 256 ^ n % 256) := by rw [Nat.pow_succ, Nat.mod_mul]
    rw [be, ofBe_cons, ih, length_be, BitVec.toNat_ofNat, Nat.shiftRight_eq_div_pow, Nat.pow_mul, hsplit, Nat.add_comm,
      Nat.mul_comm]

/-! ## The length field -/

/-- The two shapes of a length field (30_encoding.md R101). -/
theorem wsize_cases {n : Nat} (hn : n < 2 ^ 32) :
    (n ≤ 0x80 ∧ wsize n = [BitVec.ofNat 8 n])
      ∨ ∃ k, 1 ≤ k ∧ k ≤ 4 ∧ n < 256 ^ k ∧ wsize n = BitVec.ofNat 8 (0x80 + k) :: be k n := by
  by_cases h0 : n ≤ 0x80
  · exact .inl ⟨h0, wsize_short h0⟩
  by_cases h1 : n ≤ 0xFF
  · exact .inr ⟨1, by decide, by decide, by omega, wsize_one (Nat.not_le.mp h0) h1⟩
  by_cases h2 : n ≤ 0xFFFF
  · exact .inr ⟨2, by decide, by decide, by omega, wsize_two (Nat.not_le.mp h1) h2⟩
  by_cases h3 : n ≤ 0xFFFFFF
  · exact .inr ⟨3, by decide, by decide, by omega, wsize_three (Nat.not_le.mp h2) h3⟩
  · exact .inr ⟨4, by decide, by decide, by omega, wsize_four (Nat.not_le.mp h3)⟩

theorem length_wsize (n : Nat) : (wsize n).length = Claims.prefixLen n := by
  unfold wsize Claims.prefixLen
  split_ifs <;> simp

section
variable {s : State} {b : BufName} {i : Nat}

theorem State.readBytes_add (s : State) (b : BufName) (i m n : Nat) :
    s.readBytes b i (m + n) = s.readBytes b i m ++ s.readBytes b (i + m) n := by
  rw [State.readBytes, State.readBytes, State.readBytes, List.range_add, List.map_append, List.map_map]
  refine congrArg (_ ++ ·) (List.map_congr_left fun j _ => ?_)
  rw [Function.comp, Nat.add_assoc]

theorem State.readBytes_one (s : State) (b : BufName) (i : Nat) : s.readBytes b i 1 = [s.byteAt b i] := rfl

/-- Bytes stand in a buffer when the two parts do. -/
theorem State.readBytes_append_iff {bs cs : List Byte} :
    s.readBytes b i (bs ++ cs).length = bs ++ cs
      ↔ s.readBytes b i bs.length = bs ∧ s.readBytes b (i + bs.length) cs.length = cs := by
  rw [List.length_append, State.readBytes_add]
  exact ⟨fun h => List.append_inj h (by simp), fun h => congrArg₂ _ h.1 h.2⟩

theorem State.readBytes_cons_iff {x : Byte} {cs : List Byte} :
    s.readBytes b i (x :: cs).length = x :: cs
      ↔ s.byteAt b i = x ∧ s.readBytes b (i + 1) cs.length = cs := by
  have h := State.readBytes_append_iff (s := s) (b := b) (i := i) (bs := [x]) (cs := cs)
  simpa [State.readBytes_one] using h

variable {q n m k : Nat}

/-- A length field in TLB is read back (45_tlv_cursor.md R201). -/
theorem State.rsizeAt_of_wsize (hn : n < 2 ^ 32) (hread : s.readBytes .tlb q (wsize n).length = wsize n)
    (hend : q + (wsize n).length ≤ s.tlbLen.toNat) : s.rsizeAt q = .ok (n, (wsize n).length) := by
  obtain ⟨hshort, hw⟩ | ⟨k, hk, hk', hlt, hw⟩ := wsize_cases hn
  · rw [hw] at hread hend ⊢
    obtain ⟨hbyte, -⟩ := State.readBytes_cons_iff.mp hread
    have hnat : (s.tlbAt q).toNat = n := (congrArg BitVec.toNat hbyte).trans (Nat.mod_eq_of_lt (by omega))
    rw [State.rsizeAt_short hend (by omega), hnat]
    rfl
  · rw [hw] at hread hend ⊢
    obtain ⟨hbyte, hrest⟩ := State.readBytes_cons_iff.mp hread
    have hnat : (s.tlbAt q).toNat = 0x80 + k := (congrArg BitVec.toNat hbyte).trans (Nat.mod_eq_of_lt (by omega))
    rw [List.length_cons, length_be] at hend ⊢
    rw [length_be] at hrest
    rw [State.rsizeAt_of_long hk hk' hnat (by omega), hrest, ofBe_be, Nat.mod_eq_of_lt hlt, Nat.add_comm 1]

/-! ## append that succeeds -/

/-- TLB with bytes appended to it. -/
def State.appended (s : State) (bs : List Byte) : State :=
  { s with tlb := s.tlb.write s.tlbLen.toNat bs, tlbLen := BitVec.ofNat 16 (s.tlbLen.toNat + bs.length) }

variable {bs : List Byte}

theorem State.append_eq_appended (hwf : s.params.wf = true) (h : s.tlbLen.toNat + bs.length ≤ s.params.tlbCap) :
    s.append bs = .ok (s.appended bs) := State.append_of_fit hwf h

theorem State.toNat_appended_tlbLen (hwf : s.params.wf = true) (h : s.tlbLen.toNat + bs.length ≤ s.params.tlbCap) :
    (s.appended bs).tlbLen.toNat = s.tlbLen.toNat + bs.length :=
  Nat.mod_eq_of_lt (h.trans_lt (tlbCap_lt_of_wf hwf))

/-- What was appended stands at the old end of TLB. -/
theorem State.readBytes_appended (s : State) (bs : List Byte) :
    (s.appended bs).readBytes .tlb s.tlbLen.toNat bs.length = bs :=
  s.readBytes_writeBytes .tlb s.tlbLen.toNat bs

end

/-- Settles O42: the number that TLV.WSIZE appended stands at the cursor as a length field. -/
theorem lengthPrefixRoundTrip : Obligations.LengthPrefixRoundTrip := by
  intro s hwf hcur hfit
  have hn : s.val.toNat % 2 ^ 32 < 2 ^ 32 := Nat.mod_lt _ (by decide)
  have hx := exec_tlvWsize s
  generalize s.val.toNat % 2 ^ 32 = n at hn hfit hx ⊢
  rw [State.append_eq_appended hwf hfit] at hx
  have hlen := State.toNat_appended_tlbLen hwf hfit
  have hr : (s.appended (wsize n)).done.rsizeAt (s.appended (wsize n)).done.tlbCur.toNat
      = .ok (n, (wsize n).length) := by
    refine State.rsizeAt_of_wsize hn ?_ ?_
    · change (s.appended (wsize n)).readBytes .tlb s.tlbCur.toNat _ = _
      rw [hcur]
      exact s.readBytes_appended _
    · change s.tlbCur.toNat + _ ≤ (s.appended (wsize n)).tlbLen.toNat
      rw [hcur, hlen]
  refine ⟨_, _, hx, exec_tlvRsize_of_rsizeAt_ok (hlen.trans_le hfit) hr, rfl, ?_, ?_⟩
  · exact Nat.mod_eq_of_lt (by omega)
  · change BitVec.ofNat 16 (s.tlbCur.toNat + _) = BitVec.ofNat 16 (s.tlbLen.toNat + _)
    rw [hcur]

/-! ## The encode commands -/

section
variable {t : TlvType} {s u : State}

theorem exec_enc_of_string_too_long (ht : isStringType t) (h : s.params.strCap < s.strLen.toNat) :
    exec t.enc s = s.finish (.error ⟨.invalidOperand, 2, 0⟩) := by
  obtain rfl | rfl | rfl := ht <;> exact congrArg s.finish ((raiseIf_bind _ _ _).trans (if_pos h))

theorem exec_tlvEncBstr_of_bits_mismatch (h : s.strLen.toNat ≤ s.params.strCap)
    (hbits : (s.count + 7) / 8 ≠ s.strLen.toNat) :
    exec .tlvEncBstr s = s.finish (.error ⟨.invalidOperand, 9, 0⟩) :=
  congrArg s.finish (((raiseIf_bind _ _ _).trans (if_neg h.not_gt)).trans ((raiseIf_bind _ _ _).trans (if_pos hbits)))

/-- A TLV.ENC whose operand checks fail raises. -/
theorem exec_enc_of_not_encOk (h : ¬ Claims.encOk t s) : ∃ e, exec t.enc s = .next (s.raise e) := by
  by_cases hlen : s.strLen.toNat ≤ s.params.strCap
  · cases t with
    | bstr => exact ⟨_, exec_tlvEncBstr_of_bits_mismatch hlen fun hbits => h ⟨hlen, hbits⟩⟩
    | ostr | vstr => exact absurd hlen h
    | _ => exact absurd trivial h
  · refine ⟨_, exec_enc_of_string_too_long ?_ (Nat.not_le.mp hlen)⟩
    cases t with
    | ostr => exact .inl rfl
    | vstr => exact .inr (.inl rfl)
    | bstr => exact .inr (.inr rfl)
    | _ => exact absurd trivial h

theorem exec_enc_of_fit (hwf : s.params.wf = true) (hok : Claims.encOk t s)
    (hfit : s.tlbLen.toNat + (Claims.encoded t s).length ≤ s.params.tlbCap) :
    exec t.enc s = .next (s.appended (Claims.encoded t s)).done := by
  rw [exec_enc hok, State.append_eq_appended hwf hfit]
  rfl

theorem exec_enc_of_not_fit (hok : Claims.encOk t s)
    (hfit : s.params.tlbCap < s.tlbLen.toNat + (Claims.encoded t s).length) :
    ∃ e, exec t.enc s = .next (s.raise e) := by
  rw [exec_enc hok]
  by_cases hlen : s.tlbLen.toNat ≤ s.params.tlbCap
  · exact ⟨_, congrArg s.finish (State.append_of_not_fit hlen hfit)⟩
  · exact ⟨_, congrArg s.finish (State.append_of_len_above_cap (Nat.not_le.mp hlen))⟩

/-- A TLV.ENC appends its value, or its checks or the room for it fail and it raises. -/
theorem exec_enc_cases (hwf : s.params.wf = true) :
    (Claims.encOk t s ∧ s.tlbLen.toNat + (Claims.encoded t s).length ≤ s.params.tlbCap
        ∧ exec t.enc s = .next (s.appended (Claims.encoded t s)).done)
      ∨ ¬ (Claims.encOk t s ∧ s.tlbLen.toNat + (Claims.encoded t s).length ≤ s.params.tlbCap)
        ∧ ∃ e, exec t.enc s = .next (s.raise e) := by
  by_cases hok : Claims.encOk t s
  · by_cases hfit : s.tlbLen.toNat + (Claims.encoded t s).length ≤ s.params.tlbCap
    · exact .inl ⟨hok, hfit, exec_enc_of_fit hwf hok hfit⟩
    · exact .inr ⟨fun h => hfit h.2, exec_enc_of_not_fit hok (Nat.not_le.mp hfit)⟩
  · exact .inr ⟨fun h => hok h.1, exec_enc_of_not_encOk hok⟩

theorem length_fixedContent (s : State) (w : Nat) : (Claims.fixedContent s w).length = w := by
  rw [Claims.fixedContent, List.length_map, List.length_range]

theorem length_encoded (t : TlvType) (s : State) : (Claims.encoded t s).length = Claims.encodedLen t s := by
  have hstr : (Claims.strContent s).length = s.strLen.toNat := State.length_readBytes _ _ _ _
  cases t with
  | arr | struct => rw [Claims.encoded, List.length_cons, length_wsize, Nat.add_comm]; rfl
  | bool => rfl
  | ostr | vstr | bstr =>
    rw [Claims.encoded, List.length_cons, List.length_append, length_wsize, hstr, Claims.encodedLen]
    omega
  | i8 | u8 | enum | i16 | u16 | i32 | u32 | f32 | i64 | u64 | f64 =>
    rw [Claims.encoded, List.length_cons, length_fixedContent]
    rfl

end

/-- Settles O44: the length is checked first, and a bit string's number of bits after it. -/
theorem encOperandErrors : Obligations.EncOperandErrors := by
  refine fun s => ⟨fun t ht h => ?_, fun h hbits => ?_⟩
  · exact raises_of_exec_eq (e := ⟨.invalidOperand, 2, 0⟩) (by decide) (by decide) (exec_enc_of_string_too_long ht h)
  · exact raises_of_exec_eq (e := ⟨.invalidOperand, 9, 0⟩) (by decide) (by decide)
      (exec_tlvEncBstr_of_bits_mismatch h (by rwa [State.count_eq_mod]))

/-- Settles O45: the command appends a value of that length, or raises and leaves TLB. -/
theorem encodedLengths : Obligations.EncodedLengths := by
  intro t s hwf
  rw [← length_encoded]
  obtain ⟨hok, hfit, hx⟩ | ⟨hno, e, hx⟩ := exec_enc_cases (t := t) hwf
  · exact ⟨_, hx, iff_of_true rfl ⟨hok, hfit⟩, fun _ => State.toNat_appended_tlbLen hwf hfit, fun h => absurd rfl h⟩
  · exact ⟨_, hx, iff_of_false e.statusWord_ne_zero hno, fun h => absurd h e.statusWord_ne_zero, fun _ => ⟨rfl, rfl⟩⟩

end Sys2Proof.Machine
end

section
/-!
The round trips of the TLV commands: what TLV.ENC appended TLV.DEC reads back (46_tlv_encode.md R229), and what TLV.DEC
read from a minimal encoding TLV.ENC writes again (47_tlv_decode.md R262).
-/

namespace Sys2Proof.Machine

-- One declaration after another: elaborated in parallel they take more memory than a check has.
set_option Elab.async false

/-! ## A value that stands at the cursor -/

/-- The bytes `bs` stand in TLB at the cursor, below a TLB_LEN in range. -/
structure AtCursor (bs : List Byte) (s : State) : Prop where
  len_le_cap : s.tlbLen.toNat ≤ s.params.tlbCap
  fits : s.tlbCur.toNat + bs.length ≤ s.tlbLen.toNat
  bytes : s.readBytes .tlb s.tlbCur.toNat bs.length = bs

section
variable {t : TlvType} {s : State} {content : List Byte} {w m : Nat}

theorem AtCursor.tagAtCursor (h : AtCursor (Claims.tagNumber t :: content) s) : Claims.tagAtCursor t s := by
  obtain ⟨hcap, hfits, hbytes⟩ := h
  rw [List.length_cons] at hfits
  exact ⟨hcap, by omega, (State.readBytes_cons_iff.mp hbytes).1⟩

theorem exec_dec_of_fixed_atCursor (ht : hasFixedWidth t w) (h : AtCursor (Claims.tagNumber t :: content) s)
    (hw : content.length = w) :
    exec t.dec s = .next (s.putVal (decConv t (ofBe content)) (s.tlbCur.toNat + (1 + content.length))).done := by
  subst hw
  have hfits := h.fits
  rw [List.length_cons] at hfits
  rw [exec_dec_fixed ht h.tagAtCursor (by omega), (State.readBytes_cons_iff.mp h.bytes).2, Nat.add_assoc]

theorem exec_dec_of_count_atCursor (ht : isCountType t) (hm : m < 2 ^ 32)
    (h : AtCursor (Claims.tagNumber t :: wsize m) s) :
    exec t.dec s = .next (s.putVal (zext64 m) (s.tlbCur.toNat + (1 + (wsize m).length))).done := by
  have hfits := h.fits
  rw [List.length_cons] at hfits
  rw [exec_dec_count ht h.tagAtCursor
    (State.rsizeAt_of_wsize hm (State.readBytes_cons_iff.mp h.bytes).2 (by omega)), Nat.add_assoc]

/-- The content of a string goes to STR. -/
theorem exec_dec_of_string_atCursor (ht : isStringType t) (hm : m < 2 ^ 32)
    (h : AtCursor (Claims.tagNumber t :: (wsize m ++ content)) s) (hlen : content.length = Claims.contentBytes t m)
    (hcap : content.length ≤ s.params.strCap) :
    ∃ v, exec t.dec s = .next v ∧ v.status = 0 ∧ v.tlbLen = s.tlbLen ∧ v.val = stringVal t s m
      ∧ v.tlbCur = BitVec.ofNat 16 (s.tlbCur.toNat + (1 + (wsize m ++ content).length))
      ∧ v.strLen = BitVec.ofNat 16 content.length ∧ ∀ k c, content[k]? = some c → v.byteAt .str k = c := by
  have hfits := h.fits
  obtain ⟨-, hrest⟩ := State.readBytes_cons_iff.mp h.bytes
  obtain ⟨hsize, hcontent⟩ := State.readBytes_append_iff.mp hrest
  rw [List.length_cons, List.length_append] at hfits
  have hx := exec_dec_string ht h.tagAtCursor (State.rsizeAt_of_wsize hm hsize (by omega)) (by rw [← hlen]; omega)
    (hlen ▸ hcap)
  rw [← hlen] at hx
  obtain ⟨hstored, -⟩ := s.storesOnly_storeString (i := s.tlbCur.toNat + 1 + (wsize m).length) (n := content.length)
    (by omega)
  have hwith := s.storeString_eq_with (s.tlbCur.toNat + 1 + (wsize m).length) content.length
  generalize s.storeString (s.tlbCur.toNat + 1 + (wsize m).length) content.length = u at hx hstored hwith
  refine ⟨_, hx, rfl, by rw [hwith]; rfl, rfl, ?_, by rw [hwith]; rfl, fun k c hc => ?_⟩
  · rw [hwith, List.length_append, ← Nat.add_assoc 1, ← Nat.add_assoc, ← Nat.add_assoc]
    rfl
  · have hbyte := hstored k c (by rwa [hcontent])
    rwa [Nat.zero_add] at hbyte

end

/-! ## What an encode command appends, by its form -/

section
variable {t : TlvType} {s : State} {w : Nat}

theorem count_lt (s : State) : s.count < 2 ^ 32 := by
  rw [State.count_eq_mod]
  exact Nat.mod_lt _ (by decide)

theorem zext64_mod_two_pow (v : Word64) (n : Nat) : zext64 (v.toNat % 2 ^ n) = (v.setWidth n).setWidth 64 := by
  rw [← BitVec.toNat_setWidth]
  exact BitVec.ofNat_toNat _ _

theorem sext64_mod_two_pow (v : Word64) (n : Nat) : sext64 n (v.toNat % 2 ^ n) = (v.setWidth n).signExtend 64 := by
  rw [sext64, ofNat_mod_two_pow, BitVec.ofNat_toNat]

theorem zext64_count (s : State) : zext64 s.count = (s.val.setWidth 32).setWidth 64 := by
  rw [State.count_eq_mod, zext64_mod_two_pow]

theorem ofBe_fixedContent (s : State) (w : Nat) : ofBe (Claims.fixedContent s w) = s.val.toNat % 2 ^ (8 * w) := by
  rw [← State.valBytes_eq_fixedContent, State.valBytes, ofBe_be, Nat.pow_mul]

theorem roundTripVal_of_fixedWidth (h : Claims.fixedWidth t = some w) (v : Word64) :
    Claims.roundTripVal t v
      = if Claims.isSigned t then (v.setWidth (8 * w)).signExtend 64 else (v.setWidth (8 * w)).setWidth 64 := by
  cases t with
  | arr | struct | bool | bstr | ostr | vstr => contradiction
  | i64 | u64 | f64 =>
    cases h
    exact v.setWidth_eq.symm.trans v.setWidth_eq.symm
  | i8 | u8 | enum | i16 | u16 | i32 | u32 | f32 => cases h; rfl

theorem encoded_of_hasFixedWidth (ht : hasFixedWidth t w) (s : State) :
    ∃ content, Claims.encoded t s = Claims.tagNumber t :: content ∧ content.length = w
      ∧ decConv t (ofBe content) = Claims.roundTripVal t s.val := by
  obtain hw | ⟨rfl, rfl⟩ := ht
  · refine ⟨Claims.fixedContent s w, ?_, length_fixedContent s w, ?_⟩
    · cases t <;> cases hw <;> rfl
    · rw [ofBe_fixedContent, decConv_of_fixedWidth hw, sext64_mod_two_pow, zext64_mod_two_pow,
        roundTripVal_of_fixedWidth hw]
  · refine ⟨[if s.val = 0 then 0 else 1], rfl, rfl, ?_⟩
    by_cases h : s.val = 0
    · rw [if_pos h, Claims.roundTripVal, if_pos h]
      rfl
    · rw [if_neg h, Claims.roundTripVal, if_neg h]
      rfl

theorem encoded_of_isCountType (ht : isCountType t) (s : State) :
    Claims.encoded t s = Claims.tagNumber t :: wsize s.count ∧ zext64 s.count = Claims.roundTripVal t s.val := by
  obtain rfl | rfl := ht <;> exact ⟨rfl, zext64_count s⟩

theorem encoded_of_isStringType (ht : isStringType t) (hok : Claims.encOk t s) :
    s.strLen.toNat ≤ s.params.strCap ∧ ∃ m, m < 2 ^ 32 ∧ s.strLen.toNat = Claims.contentBytes t m
      ∧ Claims.encoded t s = Claims.tagNumber t :: (wsize m ++ Claims.strContent s)
      ∧ stringVal t s m = Claims.roundTripVal t s.val := by
  have hlen : s.strLen.toNat < 2 ^ 32 := by omega
  obtain rfl | rfl | rfl := ht
  · exact ⟨hok, _, hlen, rfl, rfl, rfl⟩
  · exact ⟨hok, _, hlen, rfl, rfl, rfl⟩
  · obtain ⟨hcap, hbits⟩ := hok
    exact ⟨hcap, s.count, count_lt s, hbits.symm, rfl, zext64_count s⟩

/-- An encode command that ends with STATUS 0 leaves its value at the old end of TLB. -/
theorem exec_enc_eq_done {u : State} (hwf : s.params.wf = true) (h : exec t.enc s = .next u) (h0 : u.status = 0) :
    Claims.encOk t s ∧ s.tlbLen.toNat + (Claims.encoded t s).length ≤ s.params.tlbCap
      ∧ u = (s.appended (Claims.encoded t s)).done := by
  obtain ⟨hok, hfit, hx⟩ | ⟨-, e, hx⟩ := exec_enc_cases (t := t) hwf <;> cases hx.symm.trans h
  · exact ⟨hok, hfit, rfl⟩
  · exact absurd h0 e.statusWord_ne_zero

theorem atCursor_appended {bs : List Byte} (hwf : s.params.wf = true) (hcur : s.tlbCur = s.tlbLen)
    (hfit : s.tlbLen.toNat + bs.length ≤ s.params.tlbCap) : AtCursor bs (s.appended bs).done := by
  have hlen := State.toNat_appended_tlbLen hwf hfit
  have hcur' : (s.appended bs).done.tlbCur.toNat = s.tlbLen.toNat := congrArg BitVec.toNat hcur
  exact ⟨hlen.trans_le hfit, by rw [hcur']; exact hlen.ge, by rw [hcur']; exact s.readBytes_appended bs⟩

end

/-- Settles O49: the value stands at the cursor, and each form of TLV.DEC reads the operands of its TLV.ENC. -/
theorem encodeThenDecode : Obligations.EncodeThenDecode := by
  intro t s u hwf hcur h h0
  obtain ⟨hok, hfit, rfl⟩ := exec_enc_eq_done hwf h h0
  have hat := atCursor_appended hwf hcur hfit
  have hend : BitVec.ofNat 16 (s.tlbCur.toNat + (Claims.encoded t s).length)
      = (s.appended (Claims.encoded t s)).tlbLen := by rw [hcur]; rfl
  obtain ht | ⟨w, ht⟩ | ht := tlvForm_cases t
  · obtain ⟨henc, hval⟩ := encoded_of_isCountType ht s
    rw [henc, List.length_cons, Nat.add_comm _ 1] at hend
    rw [henc] at hat ⊢
    exact ⟨_, exec_dec_of_count_atCursor ht (count_lt s) hat, rfl, hend, rfl, hval, rfl, fun _ _ => rfl⟩
  · obtain ⟨content, henc, hw, hval⟩ := encoded_of_hasFixedWidth ht s
    rw [henc, List.length_cons, Nat.add_comm _ 1] at hend
    rw [henc] at hat ⊢
    exact ⟨_, exec_dec_of_fixed_atCursor ht hat hw, rfl, hend, rfl, hval, rfl, fun _ _ => rfl⟩
  · obtain ⟨hcap, m, hm, hlen, henc, hval⟩ := encoded_of_isStringType ht hok
    have hcontent : (Claims.strContent s).length = s.strLen.toNat := State.length_readBytes _ _ _ _
    rw [henc, List.length_cons, Nat.add_comm _ 1] at hend
    rw [henc] at hat ⊢
    obtain ⟨v, hx, hdone, hvlen, hvval, hvcur, hvstr, hbytes⟩ := exec_dec_of_string_atCursor ht hm hat
      (hcontent.trans hlen) (hcontent.trans_le hcap)
    refine ⟨v, hx, hdone, (hvcur.trans hend).trans hvlen.symm, hvlen, hvval.trans hval, ?_, fun k hk => ?_⟩
    · rw [hvstr, hcontent, BitVec.ofNat_toNat, BitVec.setWidth_eq]
    · refine hbytes k _ ?_
      rw [Claims.strContent, State.getElem?_readBytes, if_pos hk, Nat.zero_add]

/-! ## A decode command that succeeds -/

section
variable {t : TlvType} {s u : State} {w q m k : Nat}

theorem State.finish_eq_done {r : Except CmdError State} (h : s.finish r = .next u) (h0 : u.status = 0) :
    ∃ x, r = .ok x ∧ u = x.done := by
  obtain ⟨x, hx, rfl⟩ | ⟨e, -, rfl⟩ := State.finish_cases h
  · exact ⟨x, hx, rfl⟩
  · exact absurd h0 e.statusWord_ne_zero

theorem State.decOpen_eq_ok_iff_tagAtCursor {p : Nat} :
    s.decOpen t.tag = .ok p ↔ p = s.tlbCur.toNat ∧ Claims.tagAtCursor t s := by
  rw [State.decOpen_eq_ok, tag_eq_tagNumber]
  constructor
  · rintro ⟨hcap, rfl, hcur, htag⟩
    exact ⟨rfl, hcap, hcur, htag⟩
  · rintro ⟨rfl, hcap, hcur, htag⟩
    exact ⟨hcap, rfl, hcur, htag⟩

theorem exec_dec_fixed_eq_done (ht : hasFixedWidth t w) (h : exec t.dec s = .next u) (h0 : u.status = 0) :
    Claims.tagAtCursor t s ∧ s.tlbCur.toNat + 1 + w ≤ s.tlbLen.toNat
      ∧ u = (s.putVal (decConv t (ofBe (s.readBytes .tlb (s.tlbCur.toNat + 1) w))) (s.tlbCur.toNat + 1 + w)).done := by
  rw [exec_dec_eq_decFixed ht] at h
  obtain ⟨x, hx, rfl⟩ := State.finish_eq_done h h0
  obtain ⟨p, hp, hx⟩ := bind_eq_ok.mp hx
  obtain ⟨_, hneed, hx⟩ := bind_eq_ok.mp hx
  obtain ⟨rfl, htag⟩ := State.decOpen_eq_ok_iff_tagAtCursor.mp hp
  cases hx
  exact ⟨htag, State.need_eq_ok.mp hneed, rfl⟩

theorem exec_dec_count_eq_done (ht : isCountType t) (h : exec t.dec s = .next u) (h0 : u.status = 0) :
    Claims.tagAtCursor t s ∧ ∃ m k, s.rsizeAt (s.tlbCur.toNat + 1) = .ok (m, k)
      ∧ u = (s.putVal (zext64 m) (s.tlbCur.toNat + 1 + k)).done := by
  rw [exec_dec_of_isCountType ht] at h
  obtain ⟨x, hx, rfl⟩ := State.finish_eq_done h h0
  obtain ⟨p, hp, hx⟩ := bind_eq_ok.mp hx
  obtain ⟨⟨m, k⟩, hr, hx⟩ := bind_eq_ok.mp hx
  obtain ⟨rfl, htag⟩ := State.decOpen_eq_ok_iff_tagAtCursor.mp hp
  cases hx
  exact ⟨htag, m, k, hr, rfl⟩

theorem exec_dec_string_eq_done (ht : isStringType t) (h : exec t.dec s = .next u) (h0 : u.status = 0) :
    Claims.tagAtCursor t s ∧ ∃ m k, s.rsizeAt (s.tlbCur.toNat + 1) = .ok (m, k)
      ∧ s.tlbCur.toNat + 1 + k + Claims.contentBytes t m ≤ s.tlbLen.toNat
      ∧ u = ({ s.storeString (s.tlbCur.toNat + 1 + k) (Claims.contentBytes t m) with
          val := stringVal t s m } : State).done := by
  rw [exec_dec_eq_decString ht] at h
  obtain ⟨x, hx, rfl⟩ := State.finish_eq_done h h0
  obtain ⟨⟨m, y⟩, hy, hx⟩ := bind_eq_ok.mp hx
  obtain ⟨p, hp, hy⟩ := bind_eq_ok.mp hy
  obtain ⟨⟨m', k⟩, hr, hy⟩ := bind_eq_ok.mp hy
  obtain ⟨_, hneed, hy⟩ := bind_eq_ok.mp hy
  obtain ⟨_, -, hy⟩ := bind_eq_ok.mp hy
  obtain ⟨rfl, htag⟩ := State.decOpen_eq_ok_iff_tagAtCursor.mp hp
  obtain ⟨rfl, rfl⟩ := Prod.mk.inj (Except.ok.inj hy)
  obtain rfl := Except.ok.inj hx
  refine ⟨htag, m', k, hr, State.need_eq_ok.mp hneed, ?_⟩
  change ({ s.storeString (s.tlbCur.toNat + 1 + k) (Claims.contentBytes t m') with
    val := stringVal t (s.storeString (s.tlbCur.toNat + 1 + k) (Claims.contentBytes t m')) m' } : State).done = _
  rw [stringVal, State.storeString_val]
  rfl

/-- A length field has at most four bytes of content. -/
theorem State.rsizeAt_lt (hr : s.rsizeAt q = .ok (m, k)) : m < 2 ^ 32 := by
  obtain ⟨-, ⟨hle, hm, -⟩ | ⟨-, hlt, -, hm, -⟩⟩ := State.rsizeAt_eq_ok.mp hr
  · omega
  · have hbound := ofBe_lt (s.readBytes .tlb (q + 1) ((s.tlbAt q).toNat - 0x80))
    rw [← hm, State.length_readBytes] at hbound
    exact hbound.trans_le (Nat.pow_le_pow_right (Nat.succ_pos 1) (by omega))

/-- The first byte decides how long a length field is. -/
theorem State.length_wsize_of_rsizeAt (hr : s.rsizeAt q = .ok (m, k))
    (hread : s.readBytes .tlb q (wsize m).length = wsize m) : (wsize m).length = k := by
  have hm := State.rsizeAt_lt hr
  obtain ⟨-, hform⟩ := State.rsizeAt_eq_ok.mp hr
  obtain ⟨hshort, hw⟩ | ⟨j, hj, hj', -, hw⟩ := wsize_cases hm <;> rw [hw] at hread ⊢ <;>
    obtain ⟨hbyte, -⟩ := State.readBytes_cons_iff.mp hread
  · have hnat : (s.tlbAt q).toNat = m := (congrArg BitVec.toNat hbyte).trans (Nat.mod_eq_of_lt (by omega))
    rw [List.length_singleton]
    omega
  · have hnat : (s.tlbAt q).toNat = 0x80 + j := (congrArg BitVec.toNat hbyte).trans (Nat.mod_eq_of_lt (by omega))
    rw [List.length_cons, length_be]
    omega

/-- The command took the bytes `bs` at the cursor of `s` and left TLB. -/
structure Consumed (bs : List Byte) (s u : State) : Prop where
  bytes : s.readBytes .tlb s.tlbCur.toNat bs.length = bs
  cursor : u.tlbCur.toNat = s.tlbCur.toNat + bs.length
  tlb : u.tlb = s.tlb
  len : u.tlbLen = s.tlbLen
  params : u.params = s.params

/-- A value that was read whole, by its content. -/
theorem consumed_of_content {content : List Byte} (htag : Claims.tagAtCursor t s)
    (hread : s.readBytes .tlb (s.tlbCur.toNat + 1) content.length = content)
    (hend : s.tlbCur.toNat + 1 + content.length ≤ s.tlbLen.toNat)
    (hcur : u.tlbCur = BitVec.ofNat 16 (s.tlbCur.toNat + 1 + content.length))
    (hkept : u.tlb = s.tlb ∧ u.tlbLen = s.tlbLen ∧ u.params = s.params) :
    Consumed (Claims.tagNumber t :: content) s u := by
  obtain ⟨-, -, hbyte⟩ := htag
  obtain ⟨htlb, hlen, hpar⟩ := hkept
  refine ⟨State.readBytes_cons_iff.mpr ⟨hbyte, hread⟩, ?_, htlb, hlen, hpar⟩
  rw [hcur, List.length_cons, Nat.add_comm content.length 1, ← Nat.add_assoc]
  exact Nat.mod_eq_of_lt (by omega)

/-- The content bytes that a fixed-width command read are those that its encode command writes. -/
theorem fixedContent_decConv (hw : Claims.fixedWidth t = some w)
    (hval : u.val = decConv t (ofBe (s.readBytes .tlb q w))) : Claims.fixedContent u w = s.readBytes .tlb q w := by
  rw [Claims.fixedContent, State.readBytes, hval]
  exact List.map_congr_left fun j hj => extractLsb'_decConv hw (List.mem_range.mp hj)

theorem consumed_of_fixed (ht : hasFixedWidth t w) (h : exec t.dec s = .next u) (h0 : u.status = 0)
    (hmin : Claims.minimalAt t s u) : Consumed (Claims.encoded t u) s u := by
  obtain ⟨htag, hend, hu⟩ := exec_dec_fixed_eq_done ht h h0
  have hval : u.val = decConv t (ofBe (s.readBytes .tlb (s.tlbCur.toNat + 1) w)) := by rw [hu]; rfl
  have hcontent : Claims.encoded t u = Claims.tagNumber t :: s.readBytes .tlb (s.tlbCur.toNat + 1) w := by
    obtain hw | ⟨rfl, rfl⟩ := ht
    · rw [← fixedContent_decConv hw hval]
      cases t <;> cases hw <;> rfl
    · rw [ofBe_readBytes_one, decConv_bool] at hval
      rw [State.readBytes_one, Claims.encoded, hval]
      obtain hzero | hone := hmin
      · rw [hzero]
        rfl
      · rw [hone]
        rfl
  rw [hcontent]
  refine consumed_of_content htag (by rw [State.length_readBytes]) (by rwa [State.length_readBytes]) ?_
    (by rw [hu]; exact ⟨rfl, rfl, rfl⟩)
  rw [hu, State.length_readBytes]
  rfl

theorem count_of_zext64 (hm : m < 2 ^ 32) (hval : u.val = zext64 m) : u.val.toNat = m ∧ u.count = m := by
  have hnat : u.val.toNat = m := by
    rw [hval]
    exact Nat.mod_eq_of_lt (by omega)
  rw [State.count_eq_mod, hnat]
  exact ⟨rfl, Nat.mod_eq_of_lt hm⟩

theorem consumed_of_count (ht : isCountType t) (h : exec t.dec s = .next u) (h0 : u.status = 0)
    (hmin : Claims.minimalAt t s u) : Consumed (Claims.encoded t u) s u := by
  obtain ⟨htag, m, k, hr, hu⟩ := exec_dec_count_eq_done ht h h0
  obtain ⟨hnat, hcount⟩ := count_of_zext64 (u := u) (State.rsizeAt_lt hr) (by rw [hu]; rfl)
  have hread : s.readBytes .tlb (s.tlbCur.toNat + 1) (wsize m).length = wsize m := by
    rw [← hnat]
    obtain rfl | rfl := ht <;> exact hmin
  have hk := State.length_wsize_of_rsizeAt hr hread
  obtain ⟨hencoded, -⟩ := encoded_of_isCountType ht u
  rw [hencoded, hcount]
  refine consumed_of_content htag hread (by rw [hk]; exact State.rsizeAt_end_le hr) ?_
    (by rw [hu]; exact ⟨rfl, rfl, rfl⟩)
  rw [hu, hk]
  rfl

/-- The number in the length field of a string value (46_tlv_encode.md R214, R217, R218). -/
def stringPrefix (t : TlvType) (u : State) : Nat := if t = .bstr then u.count else u.strLen.toNat

theorem encoded_of_string (ht : isStringType t) (u : State) :
    Claims.encoded t u = Claims.tagNumber t :: (wsize (stringPrefix t u) ++ Claims.strContent u) := by
  obtain rfl | rfl | rfl := ht <;> rfl

/-- The length field of a decoded string value is the one that was read. -/
theorem stringPrefix_eq (ht : isStringType t) (hm : m < 2 ^ 32) (hlen : u.strLen.toNat = Claims.contentBytes t m)
    (hval : u.val = stringVal t s m) : stringPrefix t u = m := by
  obtain rfl | rfl | rfl := ht
  · exact hlen
  · exact hlen
  · exact (count_of_zext64 hm hval).2

theorem minimalAt_of_string (ht : isStringType t) (hm : m < 2 ^ 32) (hlen : u.strLen.toNat = Claims.contentBytes t m)
    (hval : u.val = stringVal t s m) (hmin : Claims.minimalAt t s u) :
    s.readBytes .tlb (s.tlbCur.toNat + 1) (wsize m).length = wsize m := by
  obtain rfl | rfl | rfl := ht
  · have hnat : u.strLen.toNat = m := hlen
    exact hnat ▸ hmin
  · have hnat : u.strLen.toNat = m := hlen
    exact hnat ▸ hmin
  · exact (count_of_zext64 hm hval).1 ▸ hmin

/-- STR holds the content after a string command. -/
theorem strContent_eq_of_storesOnly {bs : List Byte} (h : storesOnly .str 0 bs s u)
    (hlen : u.strLen.toNat = bs.length) :
    Claims.strContent u = bs := by
  rw [Claims.strContent, hlen]
  exact readBytes_of_storesOnly h

theorem consumed_of_string (ht : isStringType t) (h : exec t.dec s = .next u) (h0 : u.status = 0)
    (hmin : Claims.minimalAt t s u) : Consumed (Claims.encoded t u) s u := by
  obtain ⟨htag, m, k, hr, hend, hu⟩ := exec_dec_string_eq_done ht h h0
  have hm := State.rsizeAt_lt hr
  generalize hn : Claims.contentBytes t m = n at hend hu
  have hstores := s.storesOnly_storeString (i := s.tlbCur.toNat + 1 + k) (n := n) (by omega)
  have hwith := s.storeString_eq_with (s.tlbCur.toNat + 1 + k) n
  generalize s.storeString (s.tlbCur.toNat + 1 + k) n = v at hu hstores hwith
  have hlen : u.strLen.toNat = n := by
    rw [hu, hwith]
    exact Nat.mod_eq_of_lt (by omega)
  have hval : u.val = stringVal t s m := by rw [hu]; rfl
  have hcontent : Claims.strContent u = s.readBytes .tlb (s.tlbCur.toNat + 1 + k) n := by
    rw [hu] at hlen ⊢
    exact strContent_eq_of_storesOnly (storesOnly_congr rfl rfl hstores) (by rwa [State.length_readBytes])
  have hread := minimalAt_of_string ht hm (hlen.trans hn.symm) hval hmin
  have hk := State.length_wsize_of_rsizeAt hr hread
  have hlength : (wsize m ++ s.readBytes .tlb (s.tlbCur.toNat + 1 + k) n).length = k + n := by
    rw [List.length_append, hk, State.length_readBytes]
  rw [encoded_of_string ht, stringPrefix_eq ht hm (hlen.trans hn.symm) hval, hcontent]
  refine consumed_of_content htag (State.readBytes_append_iff.mpr ⟨hread, ?_⟩) (by omega) ?_
    (by rw [hu, hwith]; exact ⟨rfl, rfl, rfl⟩)
  · rw [hk, State.length_readBytes]
  · rw [hlength, ← Nat.add_assoc, hu, hwith]
    rfl

end

/-- Settles O50: the bytes that TLV.DEC took are those that TLV.ENC makes of what it left in VAL and STR. -/
theorem decodeThenEncode : Obligations.DecodeThenEncode := by
  intro t s u v hwf h h0 hmin h' h0' m
  obtain ⟨hbytes, hcursor, htlb, hlen, hpar⟩ : Consumed (Claims.encoded t u) s u := by
    obtain ht | ⟨w, ht⟩ | ht := tlvForm_cases t
    · exact consumed_of_count ht h h0 hmin
    · exact consumed_of_fixed ht h h0 hmin
    · exact consumed_of_string ht h h0 hmin
  obtain ⟨-, hfit, rfl⟩ := exec_enc_eq_done (hpar ▸ hwf) h' h0'
  have hm : m = (Claims.encoded t u).length := by omega
  clear_value m
  subst hm
  rw [hbytes, ← hlen]
  exact ⟨State.toNat_appended_tlbLen (hpar ▸ hwf) hfit, u.readBytes_appended _⟩

end Sys2Proof.Machine
end

section
/-!
Reset (70_reset_and_hazards.md R300, R301): what the reset registers read, for the state after power on, the reset
input and SRST, and the statement about them.
-/

namespace Sys2Proof.Machine

-- One declaration after another: elaborated in parallel they take more memory than a check has.
set_option Elab.async false

/-- The registers right after hardware reset, in the order of the table of 10_state.md section 2. -/
theorem State.readReg_reset (r : Reg) : State.reset.readReg r = Claims.resetValue r := by
  cases r <;> decide

/-- `clearAll` gives every register but CMD the value it has in `State.reset`. -/
theorem State.readReg_clearAll_of_ne_cmd {r : Reg} (h : r ≠ .cmd) (s : State) :
    s.clearAll.readReg r = Claims.resetValue r := by
  rw [← State.readReg_reset]
  cases r with
  | cmd => contradiction
  | _ => rfl

/-- `done` writes STATUS and ERRINFO, which `clearAll` has left 0. -/
theorem State.readReg_done_clearAll (s : State) (r : Reg) : s.clearAll.done.readReg r = s.clearAll.readReg r := by
  cases r <;> rfl

theorem State.readReg_hardReset (s : State) (r : Reg) : s.hardReset.readReg r = Claims.resetValue r := by
  by_cases h : r = .cmd
  · subst h
    rfl
  · rw [← State.readReg_clearAll_of_ne_cmd h s]
    cases r with
    | cmd => contradiction
    | _ => rfl

theorem State.cells_clearAll (s : State) (b : BufName) : (s.clearAll.buf b).cells = [] := by
  rw [State.buf_clearAll, Buf.truncate_zero]

/-- The reset input as a step (70_reset_and_hazards.md R300). -/
theorem step_reset {s : State} {rest : List HostAction} (hq : s.hostQueue = .reset :: rest) :
    step s = .next ({ s with hostQueue := rest } : State).hardReset := by
  rw [step_cons hq]
  rfl

/-- The host's write of the word of SRST as a step (40_system.md R120, R122). -/
theorem step_srst {s : State} {v : Word64} {rest : List HostAction} (hq : s.hostQueue = .wr .cmd v :: rest)
    (hv : v.setWidth 16 = 0x0001#16) :
    step s = .next ({ s with hostQueue := rest, cmd := 0x0001#16 } : State).clearAll.done := by
  rw [step_cons hq, perform_wr_cmd, hv]
  rfl

/-- Settles O9: the table of reset values for `State.reset`, and `clearAll` for the reset input and SRST. -/
theorem resetLeavesTheStatedValues : Obligations.ResetLeavesTheStatedValues := by
  refine ⟨State.readReg_reset, fun b => by cases b <;> rfl, fun s rest hq => ?_, fun s v rest hq hv => ?_⟩
  · refine ⟨_, step_reset hq, State.readReg_hardReset _, fun b => ?_, rfl, rfl⟩
    have hbuf : (State.hardReset { s with hostQueue := rest }).buf b
        = (State.clearAll { s with hostQueue := rest }).buf b := by cases b <;> rfl
    rw [hbuf, State.cells_clearAll]
  · refine ⟨_, step_srst hq hv, rfl, fun r hr => ?_, fun b => ?_, rfl, rfl⟩
    · rw [State.readReg_done_clearAll, State.readReg_clearAll_of_ne_cmd hr]
    · rw [State.buf_done, State.cells_clearAll]

end Sys2Proof.Machine
end

section
/-!
The errors of HDEC in the order of 44_hdlc_decode.md R184: each group of steps (R171) as the first of its checks that
fails, the bytes of the received frame in terms of RXF, and the statements about the errors.
-/

namespace Sys2Proof.Machine

-- One declaration after another: elaborated in parallel they take more memory than a check has.
set_option Elab.async false

/-! ## The received frame as bytes of RXF -/

section
variable {s : State}

@[simp] theorem State.length_rxFrame (s : State) : s.rxFrame.length = s.rxfLen.toNat := s.length_readBytes ..

theorem State.byteOf_rxFrame {i : Nat} (h : i < s.rxfLen.toNat) : byteOf s.rxFrame i = Claims.rx s i := by
  rw [byteOf, List.getD_eq_getElem?_getD, State.rxFrame, State.getElem?_readBytes, if_pos h, Nat.zero_add]
  rfl

theorem State.slice_rxFrame {a b : Nat} (h : b ≤ s.rxfLen.toNat) :
    slice s.rxFrame a b = s.readBytes .rxf a (b - a) := by
  refine List.ext_getElem? fun j => ?_
  rw [slice, State.getElem?_readBytes, List.getElem?_take]
  refine ite_congr rfl (fun hj => ?_) fun _ => rfl
  rw [List.getElem?_drop, State.rxFrame, State.getElem?_readBytes, if_pos (by omega), Nat.zero_add]

end

/-! ## Steps 1 to 6: the envelope -/

theorem extractLsb'_format_eq_iff {b : Byte} : b.extractLsb' 4 4 = 0xA ↔ b.toNat / 16 = 0xA := by
  rw [← toNat_formatNibble, ← BitVec.toNat_inj]
  rfl

section
variable {s : State} {code : ErrCode} {sub off : Nat}

/-- Steps 2 to 6 on a received frame of at least nine bytes, with the fields as R84 to R86 lay them out. -/
theorem hdecEnvelope_rxFrame (h9 : 9 ≤ s.rxfLen.toNat) : hdecEnvelope s.rxFrame =
    let n := s.rxfLen.toNat
    if Claims.rx s 0 ≠ 0x7E then .error ⟨.invalidFraming, 2, 0⟩
    else if Claims.rx s (n - 1) ≠ 0x7E then .error ⟨.invalidFraming, 3, n - 1⟩
    else if (Claims.rx s 1).toNat / 16 ≠ 0xA then .error ⟨.invalidFraming, 4, 1⟩
    else if (Claims.rx s 1).toNat % 16 * 256 + (Claims.rx s 2).toNat ≠ n - 2 then .error ⟨.lengthMismatch, 0, 1⟩
    else if crc16 (s.readBytes .rxf 1 (n - 4)) ≠ Claims.rx s (n - 2) ++ Claims.rx s (n - 3) then
      .error ⟨.checksumMismatch, 1, n - 3⟩
    else .ok () := by
  rw [hdecEnvelope_eq_ite, State.length_rxFrame, if_neg (by omega), State.slice_rxFrame (by omega),
    State.byteOf_rxFrame (i := 0) (by omega), State.byteOf_rxFrame (i := 1) (by omega),
    State.byteOf_rxFrame (i := 2) (by omega), State.byteOf_rxFrame (i := s.rxfLen.toNat - 1) (by omega),
    State.byteOf_rxFrame (i := s.rxfLen.toNat - 2) (by omega),
    State.byteOf_rxFrame (i := s.rxfLen.toNat - 3) (by omega)]
  simp only [ne_eq, extractLsb'_format_eq_iff, toNat_lengthField, ofLe16, Nat.sub_sub, Nat.reduceAdd]

theorem hdecEnvelope_of_envelopeOk (h : Claims.envelopeOk s) : hdecEnvelope s.rxFrame = .ok () := by
  obtain ⟨h9, -, hfirst, hlast, hformat, hlength, hcrc⟩ := h
  rw [hdecEnvelope_rxFrame h9]
  dsimp only
  rw [if_neg (not_not.mpr hfirst), if_neg (not_not.mpr hlast), if_neg (not_not.mpr hformat),
    if_neg (not_not.mpr hlength), if_neg (not_not.mpr hcrc)]

theorem hdecFails_of_envelope_error (hcap : s.rxfLen.toNat ≤ Config.frameCap)
    (he : hdecEnvelope s.rxFrame = .error ⟨code, sub, off⟩) (hsub : sub < 256) (hoff : off < 65536) :
    Claims.hdecFails s code.num sub off := by
  refine hdecFails_of_parse_error (e := ⟨code, sub, off⟩) hcap ?_ hsub hoff
  rw [hdecParse, he]
  rfl

end

/-- Settles O29: each clause is the first check of the envelope that fails. -/
theorem hdecEnvelopeErrorsInOrder : Obligations.HdecEnvelopeErrorsInOrder := by
  intro s hcap n
  have hn : n ≤ 4097 := hcap
  refine ⟨fun hshort => ?_, fun h9 => ?_⟩
  · refine hdecFails_of_envelope_error (code := .invalidFraming) hcap ?_ (by decide) (by decide)
    rw [hdecEnvelope_eq_ite, State.length_rxFrame, if_pos hshort]
  have henv := hdecEnvelope_rxFrame h9
  refine ⟨fun hfirst => ?_, fun hfirst => ?_⟩
  · exact hdecFails_of_envelope_error (code := .invalidFraming) hcap (henv.trans (if_pos hfirst)) (by decide)
      (by decide)
  replace henv := henv.trans (if_neg (not_not.mpr hfirst))
  refine ⟨fun hlast => ?_, fun hlast => ?_⟩
  · exact hdecFails_of_envelope_error (code := .invalidFraming) hcap (henv.trans (if_pos hlast)) (by decide) (by omega)
  replace henv := henv.trans (if_neg (not_not.mpr hlast))
  refine ⟨fun hformat => ?_, fun hformat => ?_⟩
  · exact hdecFails_of_envelope_error (code := .invalidFraming) hcap (henv.trans (if_pos hformat)) (by decide)
      (by decide)
  replace henv := henv.trans (if_neg (not_not.mpr hformat))
  refine ⟨fun hlength => ?_, fun hlength hcrc => ?_⟩
  · exact hdecFails_of_envelope_error (code := .lengthMismatch) hcap (henv.trans (if_pos hlength)) (by decide)
      (by decide)
  replace henv := henv.trans (if_neg (not_not.mpr hlength))
  exact hdecFails_of_envelope_error (code := .checksumMismatch) hcap (henv.trans (if_pos hcrc)) (by decide) (by omega)

/-! ## Steps 7 to 9: the addresses -/

section
variable {F : List Byte}

/-- Without an extension bit the walk goes on to the end of its room or to the FCS. -/
theorem hdecWalk_of_no_end {limit room p : Nat} (hp : p ≤ limit)
    (h : ∀ j, p ≤ j → j < min (p + room) limit → (byteOf F j).getLsbD 0 = false) :
    hdecWalk F limit room p = .error ⟨.invalidFraming, 5, min (p + room) limit⟩ := by
  induction room generalizing p with
  | zero => rw [hdecWalk, Nat.add_zero, Nat.min_eq_left hp]
  | succ room ih =>
    rw [hdecWalk]
    by_cases hlim : limit ≤ p
    · rw [if_pos hlim, show min (p + (room + 1)) limit = p by omega]
    · rw [if_neg hlim, h p (Nat.le_refl p) (by omega), if_neg Bool.false_ne_true,
        ih (by omega) fun j hj hj' => h j (by omega) (by omega), Nat.add_right_comm, Nat.add_assoc]

/-- The walk over `nd` address bytes, of which the last has the extension bit. -/
theorem hdecWalk_of_end {limit room p nd : Nat} (hpos : 0 < nd) (hroom : nd ≤ room) (hlimit : p + nd ≤ limit)
    (hF : limit ≤ F.length) (hmid : ∀ j, j + 1 < nd → (byteOf F (p + j)).getLsbD 0 = false)
    (hend : (byteOf F (p + (nd - 1))).getLsbD 0 = true) :
    hdecWalk F limit room p = .ok (slice F p (p + nd), p + nd) := by
  have hlen : (slice F p (p + nd)).length = nd := by
    rw [slice, List.length_take, List.length_drop]
    omega
  have hbyte {j : Nat} (hj : j < nd) : byteOf (slice F p (p + nd)) j = byteOf F (p + j) := byteOf_slice (by omega)
  have hwalk := hdecWalk_of_bytes (F := F) (d := slice F p (p + nd)) (limit := limit) (room := room) (p := p)
    (List.ne_nil_of_length_pos (by omega)) (by omega) (by omega) (fun j hj => (hbyte (by omega)).symm) fun j hj => by
      rw [hlen, hbyte (by omega)]
      by_cases hlast : j + 1 = nd
      · rw [decide_eq_true hlast, show j = nd - 1 by omega, hend]
      · rw [decide_eq_false hlast, hmid j (by omega)]
  rwa [hlen] at hwalk

/-- Steps 7 to 9 behind the walk over the server address. -/
theorem hdecAddresses_of_walk {d : List Byte} {p : Nat} (h : hdecWalk F (F.length - 3) 4 3 = .ok (d, p)) :
    hdecAddresses F =
      if d.length = 3 then .error ⟨.invalidFraming, 5, p - 1⟩
      else if F.length - 3 ≤ p ∨ (byteOf F p).getLsbD 0 = false then .error ⟨.invalidFraming, 6, p⟩
      else if F.length - 3 ≤ p + 1 then .error ⟨.invalidFraming, 7, p + 1⟩
      else .ok (d, (addrBits (byteOf F p)).setWidth 8, p + 1) := by
  rw [hdecAddresses, h, ok_bind]
  simp only [raiseIf_bind]
  rfl

theorem hdecAddresses_of_walk_error {e : CmdError} (h : hdecWalk F (F.length - 3) 4 3 = .error e) :
    hdecAddresses F = .error e := by
  rw [hdecAddresses, h]
  rfl

end

section
variable {s : State} {nd : Nat} {code : ErrCode} {sub off : Nat}

/-- An extension bit on the last of `nd` bytes before the FCS ends the server address there. -/
theorem hdecWalk_rxFrame (hpos : 0 < nd) (hroom : nd ≤ 4) (hlimit : 3 + nd ≤ Claims.fcsAt s)
    (hmid : ∀ j, j + 1 < nd → (Claims.rx s (3 + j)).getLsbD 0 = false)
    (hend : (Claims.rx s (2 + nd)).getLsbD 0 = true) :
    hdecWalk s.rxFrame (s.rxFrame.length - 3) 4 3 = .ok (slice s.rxFrame 3 (3 + nd), 3 + nd) := by
  rw [Claims.fcsAt] at hlimit
  have hbyte {j : Nat} (hj : j < nd) : byteOf s.rxFrame (3 + j) = Claims.rx s (3 + j) :=
    State.byteOf_rxFrame (by omega)
  rw [State.length_rxFrame]
  refine hdecWalk_of_end hpos hroom hlimit (by rw [State.length_rxFrame]; omega) (fun j hj => ?_) ?_
  · rw [hbyte (by omega), hmid j hj]
  · rw [hbyte (by omega), show 3 + (nd - 1) = 2 + nd by omega, hend]

/-- Steps 7 to 9 on a frame whose server address ends before the FCS. -/
theorem hdecAddresses_rxFrame (h : Claims.serverEnds s nd) :
    hdecAddresses s.rxFrame =
      if Claims.fcsAt s ≤ 3 + nd ∨ (Claims.rx s (3 + nd)).getLsbD 0 = false then
        .error ⟨.invalidFraming, 6, 3 + nd⟩
      else if Claims.fcsAt s ≤ 4 + nd then .error ⟨.invalidFraming, 7, 4 + nd⟩
      else .ok (slice s.rxFrame 3 (3 + nd), (addrBits (byteOf s.rxFrame (3 + nd))).setWidth 8, 4 + nd) := by
  obtain ⟨hnd, hlimit, hmid, hend⟩ := h
  have hwalk := hdecWalk_rxFrame (by omega) (by omega) hlimit hmid hend
  rw [Claims.fcsAt] at hlimit ⊢
  have hlen : (slice s.rxFrame 3 (3 + nd)).length ≠ 3 := by
    rw [State.slice_rxFrame (by omega), State.length_readBytes]
    omega
  rw [hdecAddresses_of_walk hwalk, if_neg hlen, State.length_rxFrame, State.byteOf_rxFrame (by omega),
    show 3 + nd + 1 = 4 + nd by omega]

/-- The same where a client address with its end mark stands before the FCS. -/
theorem hdecAddresses_rxFrame_of_client (h : Claims.serverEnds s nd) (hroom : 3 + nd < Claims.fcsAt s)
    (hclient : (Claims.rx s (3 + nd)).getLsbD 0 = true) :
    hdecAddresses s.rxFrame =
      if Claims.fcsAt s ≤ 4 + nd then .error ⟨.invalidFraming, 7, 4 + nd⟩
      else .ok (slice s.rxFrame 3 (3 + nd), (addrBits (byteOf s.rxFrame (3 + nd))).setWidth 8, 4 + nd) := by
  have hpass : ¬ (Claims.fcsAt s ≤ 3 + nd ∨ (Claims.rx s (3 + nd)).getLsbD 0 = false) :=
    not_or.mpr ⟨Nat.not_le.mpr hroom, Bool.not_eq_false _ ▸ hclient⟩
  rw [hdecAddresses_rxFrame h, if_neg hpass]

theorem hdecFails_of_addresses_error (henv : Claims.envelopeOk s)
    (he : hdecAddresses s.rxFrame = .error ⟨code, sub, off⟩) (hsub : sub < 256) (hoff : off < 65536) :
    Claims.hdecFails s code.num sub off := by
  obtain ⟨-, hcap, -⟩ := id henv
  refine hdecFails_of_parse_error (e := ⟨code, sub, off⟩) hcap ?_ hsub hoff
  rw [hdecParse, hdecEnvelope_of_envelopeOk henv, ok_bind, he]
  rfl

end

/-- Settles O30: the walk over the server address finds no end, finds it in the third byte, or ends and leaves no
client address or no control byte. -/
theorem hdecAddressErrorsInOrder : Obligations.HdecAddressErrorsInOrder := by
  intro s henv
  obtain ⟨h9, hcap, -⟩ := id henv
  have hfcs : Claims.fcsAt s = s.rxfLen.toNat - 3 := rfl
  refine ⟨fun hnone => ?_, fun h3 h4 h5 => ?_, fun nd hends =>
    ⟨fun hclient => ?_, fun hroom hclient hctrl => ?_⟩⟩
  · refine hdecFails_of_addresses_error (code := .invalidFraming) henv ?_ (by decide) (by omega)
    refine hdecAddresses_of_walk_error ?_
    rw [State.length_rxFrame]
    refine hdecWalk_of_no_end (room := 4) (p := 3) (by omega) fun j hj hj' => ?_
    rw [State.byteOf_rxFrame (by omega), hnone j hj hj']
  · refine hdecFails_of_addresses_error (code := .invalidFraming) henv ?_ (by decide) (by decide)
    have hmid : ∀ j, j + 1 < 3 → (Claims.rx s (3 + j)).getLsbD 0 = false := by
      intro j hj
      obtain rfl | rfl : j = 0 ∨ j = 1 := by omega
      · exact h3
      · exact h4
    have hwalk := hdecWalk_rxFrame (nd := 3) (by decide) (by decide) (by omega) hmid h5
    rw [hdecAddresses_of_walk hwalk, State.slice_rxFrame (by omega), if_pos (s.length_readBytes ..)]
  · obtain ⟨hnd, -⟩ := id hends
    refine hdecFails_of_addresses_error (code := .invalidFraming) henv ?_ (by decide) (by omega)
    rw [hdecAddresses_rxFrame hends, if_pos hclient]
  · obtain ⟨hnd, -⟩ := id hends
    refine hdecFails_of_addresses_error (code := .invalidFraming) henv ?_ (by decide) (by omega)
    rw [hdecAddresses_rxFrame_of_client hends hroom hclient, if_pos hctrl]

/-! ## Step 10: the HCS and the information field -/

section
variable {F : List Byte} {c : Nat}

theorem hdecInfo_of_no_room_for_hcs (h : F.length - 3 - (c + 1) = 1 ∨ F.length - 3 - (c + 1) = 2) :
    hdecInfo F c = .error ⟨.invalidFraming, 8, c + 1⟩ := by
  rw [hdecInfo, raiseIf_bind, if_pos h]

theorem hdecInfo_of_hcs_mismatch (h : 3 ≤ F.length - 3 - (c + 1))
    (hcrc : crc16 (slice F 1 (c + 1)) ≠ ofLe16 (byteOf F (c + 1)) (byteOf F (c + 2))) :
    hdecInfo F c = .error ⟨.checksumMismatch, 2, c + 1⟩ := by
  rw [hdecInfo, raiseIf_bind, if_neg (by omega), if_neg (by omega), raiseIf_bind, if_pos hcrc]

end

/-! ## Steps 11 to 14: the control byte, the LLC header and the capacity -/

/-- HDEC behind the address field. -/
theorem hdecParse_of_addresses {F d : List Byte} {client : Byte} {c : Nat} {p : Config.Params} {sel : Bool}
    (henv : hdecEnvelope F = .ok ()) (haddr : hdecAddresses F = .ok (d, client, c)) :
    hdecParse p sel F = hdecInfo F c >>= fun info =>
      hdecPayload p sel c (byteOf F c) info >>= fun a => .ok (recordOf d client (byteOf F c) a.1 a.2) := by
  rw [hdecParse, henv, ok_bind, haddr]
  rfl

section
variable {p : Config.Params} {sel : Bool} {c : Nat} {ctrl : Byte} {info : List Byte} {cmd : FrameCmd}

theorem hdecPayload_of_segmented (h : ctrl.getLsbD 4 = false) :
    hdecPayload p sel c ctrl info = .error ⟨.unsupportedSegmentation, 0, c⟩ := by
  rw [hdecPayload, raiseIf_bind, if_pos h]

theorem hdecPayload_of_unclassified (hbit : ctrl.getLsbD 4 = true) (h : p.tags.classify ctrl = none) :
    hdecPayload p sel c ctrl info = .error ⟨.invalidFraming, 9, c⟩ := by
  rw [hdecPayload, raiseIf_bind, if_neg (by simp [hbit]), h]

theorem hdecPayload_of_above_capacity (hbit : ctrl.getLsbD 4 = true) (hclass : p.tags.classify ctrl = some cmd)
    (hllc : cmd = .I ∨ cmd = .UI → info.take 3 = llcRx sel)
    (h : p.payCap < (if cmd = .I ∨ cmd = .UI then info.drop 3 else info).length) :
    hdecPayload p sel c ctrl info = .error ⟨.capacityExceeded, 6, 0⟩ := by
  rw [hdecPayload, raiseIf_bind, if_neg (by simp [hbit]), hclass]
  dsimp only
  rw [raiseIf_bind, if_neg fun hbad => hbad.2 (hllc hbad.1), raiseIf_bind, if_pos h]

end

section
variable {s : State} {d info : List Byte} {client : Byte} {c : Nat} {code : ErrCode} {sub off : Nat}

theorem hdecFails_of_info_error (henv : Claims.envelopeOk s) (haddr : hdecAddresses s.rxFrame = .ok (d, client, c))
    (he : hdecInfo s.rxFrame c = .error ⟨code, sub, off⟩) (hsub : sub < 256) (hoff : off < 65536) :
    Claims.hdecFails s code.num sub off := by
  obtain ⟨-, hcap, -⟩ := id henv
  refine hdecFails_of_parse_error (e := ⟨code, sub, off⟩) hcap ?_ hsub hoff
  rw [hdecParse_of_addresses (hdecEnvelope_of_envelopeOk henv) haddr, he]
  rfl

theorem hdecFails_of_payload_error (henv : Claims.envelopeOk s) (haddr : hdecAddresses s.rxFrame = .ok (d, client, c))
    (hinfo : hdecInfo s.rxFrame c = .ok info)
    (he : hdecPayload s.params s.llcRxSel c (byteOf s.rxFrame c) info = .error ⟨code, sub, off⟩)
    (hsub : sub < 256) (hoff : off < 65536) : Claims.hdecFails s code.num sub off := by
  obtain ⟨-, hcap, -⟩ := id henv
  refine hdecFails_of_parse_error (e := ⟨code, sub, off⟩) hcap ?_ hsub hoff
  rw [hdecParse_of_addresses (hdecEnvelope_of_envelopeOk henv) haddr, hinfo, ok_bind, he]
  rfl

/-- Step 10 on a received frame without an information field, or with one whose HCS is right. -/
theorem hdecInfo_rxFrame (hc : c + 1 ≤ Claims.fcsAt s)
    (h : Claims.fcsAt s - (c + 1) = 0 ∨ 3 ≤ Claims.fcsAt s - (c + 1)
      ∧ crc16 (s.readBytes .rxf 1 c) = Claims.rx s (c + 2) ++ Claims.rx s (c + 1)) :
    hdecInfo s.rxFrame c = .ok (s.readBytes .rxf (c + 3) (Claims.fcsAt s - (c + 1) - 2)) := by
  rw [Claims.fcsAt] at h hc ⊢
  rw [hdecInfo_eq_ok, State.length_rxFrame, State.slice_rxFrame (by omega), State.slice_rxFrame (by omega)]
  refine h.imp (fun h0 => ⟨h0, ?_⟩) fun ⟨h3, hcrc⟩ => ⟨h3, ?_, ?_⟩
  · rw [h0]
    rfl
  · rw [State.byteOf_rxFrame (by omega), State.byteOf_rxFrame (by omega)]
    exact hcrc
  · rw [show s.rxfLen.toNat - 3 - (c + 1) - 2 = s.rxfLen.toNat - 3 - (c + 3) by omega]

end

/-- Settles O31: step 10 raises, or gives the information field, and then one of the checks of steps 11 to 14 fails. -/
theorem hdecLateErrorsInOrder : Obligations.HdecLateErrorsInOrder := by
  intro s nd henv hends hclient hctrl c R info
  obtain ⟨-, hcap, -⟩ := id henv
  have hR : R = s.rxfLen.toNat - 3 - (c + 1) := rfl
  have hc : c + 1 ≤ s.rxfLen.toNat - 3 := hctrl
  have haddr := (hdecAddresses_rxFrame_of_client hends (by omega) hclient).trans (if_neg (Nat.not_le.mpr hctrl))
  refine ⟨fun hshort => ?_, fun h3 hcrc => ?_, fun hfield => ?_⟩
  · refine hdecFails_of_info_error (code := .invalidFraming) henv haddr ?_ (by decide) (by omega)
    exact hdecInfo_of_no_room_for_hcs (by rwa [State.length_rxFrame])
  · refine hdecFails_of_info_error (code := .checksumMismatch) henv haddr ?_ (by decide) (by omega)
    refine hdecInfo_of_hcs_mismatch (by rwa [State.length_rxFrame]) ?_
    rw [State.slice_rxFrame (by omega), State.byteOf_rxFrame (by omega), State.byteOf_rxFrame (by omega)]
    exact hcrc
  have hinfo : hdecInfo s.rxFrame c = .ok info := hdecInfo_rxFrame hc hfield
  have hlen : info.length = R - 2 := s.length_readBytes ..
  have fails {code : ErrCode} {sub off : Nat}
      (he : hdecPayload s.params s.llcRxSel c (Claims.rx s c) info = .error ⟨code, sub, off⟩) (hsub : sub < 256)
      (hoff : off < 65536) : Claims.hdecFails s code.num sub off := by
    refine hdecFails_of_payload_error henv haddr hinfo ?_ hsub hoff
    rwa [State.byteOf_rxFrame (by omega)]
  refine ⟨fun hbit => ?_, fun hbit => ⟨fun hnone => ?_, fun cmd hclass => ⟨fun hcmd hllc => ?_,
    fun hcmd hllc hbig => ?_, fun hI hUI hbig => ?_⟩⟩⟩
  · exact fails (hdecPayload_of_segmented hbit) (by decide) (by omega)
  · exact fails (hdecPayload_of_unclassified hbit hnone) (by decide) (by omega)
  · have hnil : info = [] ↔ R = 0 := by
      rw [← List.length_eq_zero_iff, hlen]
      omega
    have he := hdecPayload_of_llc_missing (c := c) (sel := s.llcRxSel) hbit hclass hcmd hllc
    simp only [hnil] at he
    exact fails he (by decide) (by split <;> omega)
  · refine fails (hdecPayload_of_above_capacity hbit hclass (fun _ => hllc) ?_) (by decide) (by decide)
    rw [if_pos hcmd, List.length_drop]
    omega
  · have hno : ¬ (cmd = .I ∨ cmd = .UI) := not_or.mpr ⟨hI, hUI⟩
    refine fails (hdecPayload_of_above_capacity hbit hclass (fun hcmd => absurd hcmd hno) ?_) (by decide) (by decide)
    rwa [if_neg hno]

end Sys2Proof.Machine
end

section
/-!
The two ends of HDEC that are no error of a frame: what it returns for a frame of the layout of 30_encoding.md R84
(44_hdlc_decode.md R183), what an impossible RXF_LEN leaves in place (R172), and the statements about them.
-/

namespace Sys2Proof.Machine

-- One declaration after another: elaborated in parallel they take more memory than a check has.
set_option Elab.async false

/-! ## A frame that HDEC accepts -/

theorem toNat_ctrlSend (ctrl : Byte) : (ctrlSend ctrl).toNat = (ctrl.toNat / 32 + 7) % 8 := by
  rw [ctrlSend, BitVec.toNat_add, BitVec.extractLsb'_toNat, Nat.shiftRight_eq_div_pow]
  change (ctrl.toNat / 32 % 8 + 7) % 8 = _
  omega

theorem toNat_ctrlRecv (ctrl : Byte) : (ctrlRecv ctrl).toNat = ctrl.toNat / 2 % 8 := by
  rw [ctrlRecv, BitVec.extractLsb'_toNat, Nat.shiftRight_eq_div_pow, pow_one]

theorem State.storesOnly_putRx {r : ParsedFrame} (s : State) (h : r.pay.length < 65536) :
    storesOnly .rxp 0 r.pay s (s.putRx r) := by
  have hlen : (BitVec.ofNat 16 r.pay.length).toNat = r.pay.length := Nat.mod_eq_of_lt h
  exact storesOnly_congr rfl rfl
    (storesOnly_setLen_writeBytes (s := s) (b := .rxp) (i := 0) (by rw [Nat.zero_add]; exact hlen.ge))

section
variable {na : Nat} {L P : Word16} {client ctrl : Byte} {info pay : List Byte} {cmd : FrameCmd} {p : Config.Params}
  {sel : Bool}

theorem length_llcRx (sel : Bool) : (llcRx sel).length = 3 := by
  cases sel <;> rfl

/-- The record of a built frame whose control byte names a command and whose information field begins with the LLC
header where that command has one. -/
theorem hdecParse_builtFrame_eq_ok (hna : na = 1 ∨ na = 2 ∨ na = 4) (hclient : client.toNat ≤ 0x7F)
    (hfit : frameLen na info.length ≤ 0xFFF) (hbit : ctrl.getLsbD 4 = true) (hclass : p.tags.classify ctrl = some cmd)
    (hinfo : info = (if cmd = .I ∨ cmd = .UI then llcRx sel else []) ++ pay) (hcap : pay.length ≤ p.payCap) :
    hdecParse p sel (builtFrame na L P client ctrl info)
      = .ok (recordOf (serverBytes L P na) client ctrl cmd pay) := by
  have hllc : cmd = .I ∨ cmd = .UI → info.take 3 = llcRx sel := fun hcmd => by
    rw [hinfo, if_pos hcmd, List.take_left' (length_llcRx sel)]
  have hpay : pay = if cmd = .I ∨ cmd = .UI then info.drop 3 else info := by
    rw [hinfo]
    split
    · exact (List.drop_left' (length_llcRx sel)).symm
    · rfl
  rw [hdecParse_builtFrame hna hclient hfit, hdecPayload_eq_ok.mpr ⟨hbit, hclass, hllc, hpay, hcap⟩,
    ok_bind]

end

/-- Settles O28: the record of the frame is made of the operands of its layout, and `putRx` writes it. -/
theorem hdecAcceptsWellBuiltFrames : Obligations.HdecAcceptsWellBuiltFrames := by
  intro s na L P client ctrl info pay cmd hna hL hP hclient hfit hframe hbit hclass hinfo hcap
  have hlen : s.rxfLen.toNat = frameLen na info.length + 2 := by
    rw [← State.length_rxFrame, State.rxFrame, hframe]
    exact length_builtFrame hna
  have hrxf : s.rxfLen.toNat ≤ Config.frameCap := hlen.trans_le (Nat.add_le_add_right hfit 2)
  have hsmall : pay.length < 65536 := by
    have hle : pay.length ≤ info.length := by rw [hinfo, List.length_append]; omega
    have hbody : info.length ≤ frameLen na info.length := by rw [frameLen]; split <;> omega
    omega
  have hparse : hdecParse s.params s.llcRxSel s.rxFrame
      = .ok (recordOf (serverBytes L P na) client ctrl cmd pay) := by
    rw [State.rxFrame, hframe]
    exact hdecParse_builtFrame_eq_ok hna hclient hfit hbit hclass hinfo hcap
  obtain ⟨hlog, hphy⟩ := Prod.mk.inj (serverOf_serverBytes hna hL hP)
  have halen : (BitVec.ofNat 3 (serverBytes L P na).length).toNat = na := by
    rw [length_serverBytes L P hna, BitVec.toNat_ofNat]
    omega
  refine ⟨_, execHdec_of_parse_ok hrxf hparse, ⟨rfl, rfl⟩, ?_, ?_⟩
  · exact storesOnly_congr rfl rfl
      (s.storesOnly_putRx (r := recordOf (serverBytes L P na) client ctrl cmd pay) hsmall)
  rw [State.putRx_eq_with]
  refine ⟨Nat.mod_eq_of_lt hsmall, toNat_index_setWidth cmd, rfl, rfl, hlog, hphy, halen, ?_,
    fun hcmd => ⟨if_neg hcmd, if_neg hcmd⟩, rfl⟩
  rintro rfl
  exact ⟨toNat_ctrlSend ctrl, toNat_ctrlRecv ctrl⟩

/-! ## What a failure clears -/

/-- Settles O32: HDEC has three ends, and `raise`, `clearRx` and `putRx` write the status and the results only. -/
theorem hdecFailureClearsTheResults : Obligations.HdecFailureClearsTheResults := by
  refine fun s => ⟨fun hlong => ?_, fun t h => ?_⟩
  · exact raises_of_exec_eq (e := ⟨.invalidOperand, 4, 0⟩) (by decide) (by decide)
      (execHdec_of_len_above_cap hlong)
  obtain ⟨hlong, hx⟩ | ⟨-, ⟨e, -, hx⟩ | ⟨r, -, hx⟩⟩ := execHdec_cases s <;> cases hx.symm.trans h
  · exact ⟨fun hcap => absurd hcap (Nat.not_le.mpr hlong), rfl⟩
  · rw [State.clearRx_eq_with]
    exact ⟨fun _ _ => ⟨rfl, rfl, rfl, rfl, rfl, rfl, rfl, rfl, rfl⟩, rfl⟩
  · rw [State.putRx_eq_with]
    exact ⟨fun _ h0 => absurd rfl h0, rfl⟩

end Sys2Proof.Machine
end
